-- ==== Sys2Proof/Word.lean ====
section
/-! DEFINITION. The two widths the block computes with: the byte, and the 16-bit checksum accumulator
(spec/00_scope.md R8, spec/10_state.md R13). -/

namespace Sys2Proof

/-- A byte, 0 to 255 (R8). Bit 0 is its least significant bit. -/
abbrev Byte := BitVec 8

/-- The width of the checksum accumulator (R13); nothing else in the block has 16 bits (R34). -/
abbrev Word := BitVec 16

end Sys2Proof
end

