-- ==== Sys2Proof/Config.lean ====
section
/-! DEFINITION. What is fixed when the block is constructed (spec/00_scope.md R7), and the free values.
The free values are opaque: no proof can see what they are. -/

namespace Sys2Proof

/-- A pair (address, register) on the bus `busId` (R9, R30). The spec calls both numbers opaque; the model
carries them as natural numbers (log entry 16). -/
structure Target where
  address : Nat
  register : Nat
  deriving DecidableEq, Repr, Inhabited

/-- Which reading of the second reply read is meant (spec/92_eei_decisions.md D7). `remainder` is the
normative one (R137, conflict C3). `restart` is the other reading D7 writes out, carried as a parameter as
93_implementation_defined.md U18 advises. -/
inductive RxMode where
  | remainder
  | restart
  deriving DecidableEq, Repr, Inhabited

/-- The configuration record of R7, and `rxMode` of D7. -/
structure Cfg where
  /-- `BUS_ID`: first argument of every transport call. -/
  busId : Nat
  /-- `DEV_ADDR`: the device's bus address. -/
  devAddr : Nat
  /-- `CMD_REG`: the command/response register. -/
  cmdReg : Nat
  /-- `WAKE_TARGET`: receives the zero-length wake write. -/
  wakeTarget : Target
  /-- `IDLE_TARGET`: receives the idle write. -/
  idleTarget : Target
  /-- `SLEEP_TARGET`: receives the sleep write. -/
  sleepTarget : Target
  /-- `T_WAKE_SETTLE`: the settle interval, a lower bound (R113, R204). -/
  tWakeSettle : Nat
  /-- `T_EXEC`: the execution window, a lower bound (R135, R204). -/
  tExec : Nat
  /-- `OPC_SELFTEST`: the device opcode named SelfTest. -/
  opcSelftest : Byte
  /-- `OPC_READ`: the device opcode named Read. -/
  opcRead : Byte
  /-- `RX_MODE` of D7. -/
  rxMode : RxMode
  deriving DecidableEq, Repr, Inhabited

/-- `CMD_TARGET`, the pair (`DEV_ADDR`, `CMD_REG`) (R7, R33). -/
def Cfg.cmdTarget (c : Cfg) : Target := ⟨c.devAddr, c.cmdReg⟩

/-- The largest command payload length, 248, since `7 + N` must fit the one count byte (R7, R51). -/
def maxPayload : Nat := 248

/-- The configuration the block was constructed with. The spec gives none of its values (R7: OPEN; D14, D15,
D16), so it has no value here (log entry 9). -/
opaque Config.constructed : Cfg

/-- FREE VALUE. A byte of a read answer that the answer in `State.answers` does not list. R44 leaves every
byte the transport returns open (U10). Applied to `State.draws` (log entry 3). -/
opaque Config.freeByte : Nat → Byte

/-- FREE VALUE. Which of several held requests is accepted next: R41 leaves the order open (U11). Applied to
`State.draws` (log entry 4). -/
opaque Config.pickHeld : Nat → Nat

end Sys2Proof
end

