-- ==== Sys2Proof/Syntax.lean ====
section
/-! DEFINITION. The operations of the block: one constructor per row of spec/opcode_table.json. -/

namespace Sys2Proof

/-- One request to the block with its operands (spec/30_encoding.md R60, R61), or one of the two wire command
frames of R67 handed to the block for sending (log entry 6). -/
inductive Instr where
  /-- CHECKSUM, selector `0x01` (R80). -/
  | checksum (bytes : List Byte)
  /-- ENCODE, selector `0x02` (R90). `param2` is two bytes in sending order, no integer (R52). -/
  | encode (opcode param1 : Byte) (param2 : Byte × Byte) (payload : List Byte)
  /-- DECODE, selector `0x03` (R92). -/
  | decode (bytes : List Byte)
  /-- CLASSIFY, selector `0x04` (R97). -/
  | classify (code : Byte)
  /-- WAKE, selector `0x10` (R111). -/
  | wake
  /-- IDLE, selector `0x11` (R116). -/
  | idle
  /-- SLEEP, selector `0x12` (R117). -/
  | sleep
  /-- EXECUTE, selector `0x20` (R130). -/
  | execute (opcode param1 : Byte) (param2 : Byte × Byte) (payload : List Byte) (autoWake : Bool)
  /-- SELFTEST, selector `0x30` (R150). -/
  | selftest
  /-- INFO, selector `0x31` (R153). -/
  | info
  /-- The SelfTest wire command frame `07 o 3B 00 00 l h` (R67): its opcode byte and its two checksum bytes. -/
  | selftestFrame (opcode crcLo crcHi : Byte)
  /-- The Info (Read) wire command frame `07 o 80 00 00 l h` (R67). -/
  | infoFrame (opcode crcLo crcHi : Byte)
  deriving DecidableEq, Repr

end Sys2Proof
end

