-- ==== Sys2Proof/Decode.lean ====
section
/-! DEFINITION. The request port's encoding (spec/30_encoding.md R60 to R62), the layout of the two wire command
frames (R67), the decoder that reads them, and the encoder. -/

namespace Sys2Proof

/-- The typed operand ports of a request (R60): operands are passed as bytes, byte sequences and one boolean.
An operation reads only the ports its row of R61 lists. -/
structure Operands where
  bytes : List Byte := []
  code : Byte := 0
  opcode : Byte := 0
  param1 : Byte := 0
  param2 : Byte × Byte := (0, 0)
  payload : List Byte := []
  autoWake : Bool := false
  deriving DecidableEq, Repr

/-- What the caller can present: a request on the request port, that is an op selector with its operand ports
(R60), or the bytes of a command frame handed over for sending (the model's own port, log entry 6). -/
inductive PortWord where
  | request (selector : Byte) (operands : Operands)
  | frame (bytes : List Byte)
  deriving DecidableEq, Repr

/-- Why the decoder gives no instruction. -/
inductive DecodeError where
  /-- The selector is none of the ten of R61 (R62). -/
  | unknownOp (selector : Byte)
  /-- The bytes are neither of the two frames of R67. -/
  | notACommandFrame
  deriving DecidableEq, Repr

/-- The op selectors of R61. -/
def decodeRequest (selector : Byte) (o : Operands) : Except DecodeError Instr :=
  if selector = 0x01 then .ok (.checksum o.bytes)
  else if selector = 0x02 then .ok (.encode o.opcode o.param1 o.param2 o.payload)
  else if selector = 0x03 then .ok (.decode o.bytes)
  else if selector = 0x04 then .ok (.classify o.code)
  else if selector = 0x10 then .ok .wake
  else if selector = 0x11 then .ok .idle
  else if selector = 0x12 then .ok .sleep
  else if selector = 0x20 then .ok (.execute o.opcode o.param1 o.param2 o.payload o.autoWake)
  else if selector = 0x30 then .ok .selftest
  else if selector = 0x31 then .ok .info
  else .error (.unknownOp selector)

/-- The two wire command frames of R67: seven bytes, count `0x07`, a free opcode byte, `param1` telling the two
apart, `param2` zero, and the two checksum bytes. Other bytes are rejected by name. -/
def decodeFrame (bytes : List Byte) : Except DecodeError Instr :=
  match bytes with
  | [count, opcode, param1, param20, param21, crcLo, crcHi] =>
    if count = 0x07 ∧ param20 = 0x00 ∧ param21 = 0x00 then
      if param1 = 0x3B then .ok (.selftestFrame opcode crcLo crcHi)
      else if param1 = 0x80 then .ok (.infoFrame opcode crcLo crcHi)
      else .error .notACommandFrame
    else .error .notACommandFrame
  | _ => .error .notACommandFrame

/-- The decoder, total on anything that can be presented. -/
def decode (w : PortWord) : Except DecodeError Instr :=
  match w with
  | .request selector operands => decodeRequest selector operands
  | .frame bytes => decodeFrame bytes

/-- The bytes of the SelfTest command frame (R67). -/
def selftestFrameBytes (opcode crcLo crcHi : Byte) : List Byte :=
  [0x07, opcode, 0x3B, 0x00, 0x00, crcLo, crcHi]

/-- The bytes of the Info command frame (R67). -/
def infoFrameBytes (opcode crcLo crcHi : Byte) : List Byte :=
  [0x07, opcode, 0x80, 0x00, 0x00, crcLo, crcHi]

/-- The encoder (R61, R67). Operand ports the operation does not read are left at zero or empty (log entry 5). -/
def encode (i : Instr) : PortWord :=
  match i with
  | .checksum bytes => .request 0x01 { bytes := bytes }
  | .encode opcode param1 param2 payload =>
    .request 0x02 { opcode := opcode, param1 := param1, param2 := param2, payload := payload }
  | .decode bytes => .request 0x03 { bytes := bytes }
  | .classify code => .request 0x04 { code := code }
  | .wake => .request 0x10 {}
  | .idle => .request 0x11 {}
  | .sleep => .request 0x12 {}
  | .execute opcode param1 param2 payload autoWake =>
    .request 0x20 { opcode := opcode, param1 := param1, param2 := param2, payload := payload, autoWake := autoWake }
  | .selftest => .request 0x30 {}
  | .info => .request 0x31 {}
  | .selftestFrame opcode crcLo crcHi => .frame (selftestFrameBytes opcode crcLo crcHi)
  | .infoFrame opcode crcLo crcHi => .frame (infoFrameBytes opcode crcLo crcHi)

/-- Byte `k` of a number whose bits are numbered as spec/opcode_table.json numbers them. -/
def byteOf (w k : Nat) : Byte := BitVec.ofNat 8 (w / 2 ^ (8 * k))

/-- What the caller presents when the bits of an instruction are `w`. A row of 8 bits is a selector, whose operand
ports the table gives no bits, so they are zero or empty. A row of 56 bits is a wire frame of seven bytes. -/
def portWordOf (nbits w : Nat) : PortWord :=
  if nbits ≤ 8 then .request (byteOf w 0) {}
  else .frame [byteOf w 0, byteOf w 1, byteOf w 2, byteOf w 3, byteOf w 4, byteOf w 5, byteOf w 6]

/-- The instruction the decoder reads from the bits `w` of a table row of `nbits` bits. -/
def decodeTableWord (nbits w : Nat) : Option Instr :=
  (decode (portWordOf nbits w)).toOption

end Sys2Proof
end

