-- ==== Sys2Proof/Machine/State.lean ====
section
/-! DEFINITION. The state of the block as plain data (spec/10_state.md R10), what crosses its interfaces, the
reasons a step can stop, and the state after reset (R22). -/

namespace Sys2Proof.Machine

/-- SessionState (R11): the block's belief about the device's power state. -/
inductive Session where
  | sleeping
  | awake
  | faulted
  deriving DecidableEq, Repr

/-- The sequencer's positions (R17). -/
inductive Phase where
  | idle
  | check
  | wakeWrite
  | wakeSettle
  | wakeRead
  | encode
  | cmdWrite
  | execWait
  | readLen
  | readBody
  | decode
  | interpret
  | cleanup
  | powerWrite
  | done
  deriving DecidableEq, Repr

/-- Why a request is refused (R64, R178). -/
inductive RefusedReason where
  | notAwake
  | payloadTooLong
  | unknownOp
  deriving DecidableEq, Repr

/-- The typed errors an operation can deliver (R64, R170). -/
inductive Error where
  | transport (e : Nat)
  | frameTooShort
  | checksumMismatch
  | wakeFailed
  | commandStatus (code : Byte)
  | unknownStatus (code : Byte)
  | shortResponse
  | refused (reason : RefusedReason)
  deriving DecidableEq, Repr

/-- The semantic category of a status byte (R57, R58). -/
inductive Category where
  | success
  | verifyMiscompare
  | parseError
  | eccFault
  | selfTestError
  | healthTestError
  | executionError
  | beforeFirstCommand
  | watchdogImminent
  | communicationError
  | unknownStatus (code : Byte)
  deriving DecidableEq, Repr

/-- The outcome of one sub-test (R151). -/
inductive Verdict where
  | pass
  | fail
  deriving DecidableEq, Repr

/-- What `decode` returns (R92): the data, and the status byte of a 4-byte frame. -/
structure Decoded where
  data : List Byte
  status : Option Byte
  deriving DecidableEq, Repr

/-- The record CLASSIFY returns (R63, R97). -/
structure Classified where
  category : Category
  nonErrorInExecute : Bool
  nonErrorInWake : Bool
  hard : Bool
  deriving DecidableEq, Repr

/-- The record SELFTEST returns (R63, R151). -/
structure SelfTestReport where
  rng : Verdict
  aes : Verdict
  ecdh : Verdict
  ecdsa : Verdict
  drbg : Verdict
  mask : Byte
  deriving DecidableEq, Repr

/-- The record INFO returns (R63, R154): nine and four bytes, in reply order. -/
structure InfoReport where
  serial : List Byte
  revision : List Byte
  deriving DecidableEq, Repr

/-- The result values of R63. WAKE, IDLE and SLEEP return nothing. -/
inductive Result where
  /-- CHECKSUM, ENCODE and EXECUTE. -/
  | bytes (value : List Byte)
  /-- DECODE. -/
  | decoded (value : Decoded)
  /-- CLASSIFY. -/
  | classified (value : Classified)
  /-- SELFTEST. -/
  | selfTest (value : SelfTestReport)
  /-- INFO. -/
  | info (value : InfoReport)
  deriving DecidableEq, Repr

/-- One delivery on the result port (R60, R140): no error means `OK`. -/
structure Delivery where
  err : Option Error
  result : Option Result
  deriving DecidableEq, Repr

/-- A location of the transport's address space (R30). -/
structure Location where
  busId : Nat
  address : Nat
  register : Nat
  deriving DecidableEq, Repr

/-- What a read returned (R32): bytes, or the collaborator's error value. -/
inductive ReadOutcome where
  | got (bytes : List Byte)
  | failed (e : Nat)
  deriving DecidableEq, Repr

/-- One entry of the event trace (R9): a transport call that has returned, with what it returned, or a delay. -/
inductive Event where
  /-- `BusWrite` (R31); `failure` is none where the write answered ok. -/
  | write (loc : Location) (bytes : List Byte) (failure : Option Nat)
  /-- `BusRead` of `n` bytes (R32). -/
  | read (loc : Location) (n : Nat) (outcome : ReadOutcome)
  /-- `Delay(T)`, a lower bound (R40). -/
  | delay (duration : Nat)
  deriving DecidableEq, Repr

/-- One answer of the environment to one transport call (R44). A write takes `ok` and `bytes` for success; a read
takes `ok` for bytes that are all free (log entry 3). -/
inductive Answer where
  | ok
  | bytes (value : List Byte)
  | error (e : Nat)
  deriving DecidableEq, Repr

/-- The latched Command with the autoWake bit (R14). -/
structure Cmd where
  opcode : Byte
  param1 : Byte
  param2 : Byte × Byte
  payload : List Byte
  autoWake : Bool
  deriving DecidableEq, Repr

/-- The state. The first eleven fields are the elements of R10; the others are the model's own: the latched
request, the inputs of the caller and the environment, and the record of what the block has put out. -/
structure State where
  /-- SessionState (R11). -/
  session : Session
  /-- A call is in flight (R12). -/
  busy : Bool
  /-- The configuration; construction alone writes it (R19). -/
  cfg : Cfg
  /-- The 16-bit accumulator of the Checksum Engine (R13). -/
  acc : Word
  /-- The Command in flight (R14). -/
  cmd : Cmd
  /-- The encoded command frame (R15). -/
  txbuf : List Byte
  /-- The reply's count byte (R16). -/
  rxlen : Byte
  /-- The reply frame handed to the decoder (R16). -/
  rxbuf : List Byte
  /-- The sequencer's position (R17). -/
  phase : Phase
  /-- The error of the operation in flight (R18). -/
  err : Option Error
  /-- The value the operation returns (R18). -/
  result : Option Result
  /-- The request in flight, its selector and operands as sampled at acceptance (R42; log entry 14). -/
  op : Option Instr
  /-- Requests presented and not yet accepted (R41). -/
  held : List PortWord
  /-- Answers of the environment not yet consumed (R44); none left means the next call has not returned. -/
  answers : List Answer
  /-- The event trace, oldest first (R39). -/
  trace : List Event
  /-- The deliveries on the result port, oldest first (R206). -/
  delivered : List Delivery
  /-- How many free values have been drawn (log entry 3). -/
  draws : Nat
  deriving DecidableEq, Repr

/-- The reasons the machine stops. There are none: every error of the spec is delivered on the result port and the
block goes on (spec/60_exceptions.md R182). -/
inductive Fault where
  deriving DecidableEq, Repr

/-- The requests the machine gives no meaning. -/
inductive Refusal where
  /-- Raised by `exec` for an instruction whose meaning is not written. Safe: nothing can be proved of its effect.
  No arm of `exec` raises it. -/
  | notModelled (mnemonic : String)
  /-- Raised by `stimulate` for a construction while an operation is in flight, which R201 does not admit. Safe: the
  model has no such run. -/
  | resetWhileBusy
  deriving DecidableEq, Repr

/-- A Command with every operand zero, the value `cmd` is named to have at reset (log entry 11). -/
def Cmd.zero : Cmd := ⟨0, 0, (0, 0), [], false⟩

/-- The state right after construction with a configuration (R22, R200): the stated reset values of `session`,
`busy`, `phase` and `err`; named values for the elements whose reset value R22 leaves unspecified (log entry 11);
nothing presented, answered, recorded or drawn. -/
def State.constructed (cfg : Cfg) : State where
  session := .sleeping
  busy := false
  cfg := cfg
  acc := 0
  cmd := Cmd.zero
  txbuf := []
  rxlen := 0
  rxbuf := []
  phase := .idle
  err := none
  result := none
  op := none
  held := []
  answers := []
  trace := []
  delivered := []
  draws := 0

/-- The machine right after reset. The configuration is what construction supplied, with the normative reading of
the second reply read (log entries 9 and 10). -/
def State.reset : State :=
  State.constructed { Config.constructed with rxMode := .remainder }

end Sys2Proof.Machine
end

