-- ==== Sys2Proof/Machine/Operands.lean ====
section
/-! DEFINITION. The operand forms: what acceptance latches into `cmd` (spec/10_state.md R14, spec/43_executor.md
R131), the Commands SELFTEST and INFO stand for (spec/30_encoding.md R67, R70), and the first phase of each
operation (R17). -/

namespace Sys2Proof.Machine

/-- The SelfTest command (R67, R150). -/
def selftestCmd (opcode : Byte) (autoWake : Bool) : Cmd := ⟨opcode, 0x3B, (0x00, 0x00), [], autoWake⟩

/-- The Info command (R67, R153). -/
def infoCmd (opcode : Byte) (autoWake : Bool) : Cmd := ⟨opcode, 0x80, (0x00, 0x00), [], autoWake⟩

/-- The Command an operation latches, where it has one (R14). DESIGN CHOICE (log entry 28): the spec gives the autoWake
bit for EXECUTE alone, and the model latches it as 0 for ENCODE. -/
def commandOf (i : Instr) (cfg : Cfg) : Option Cmd :=
  match i with
  | .encode opcode param1 param2 payload => some ⟨opcode, param1, param2, payload, false⟩
  | .execute opcode param1 param2 payload autoWake => some ⟨opcode, param1, param2, payload, autoWake⟩
  | .selftest => some (selftestCmd cfg.opcSelftest true)
  | .info => some (infoCmd cfg.opcRead true)
  | .selftestFrame opcode _ _ => some (selftestCmd opcode false)
  | .infoFrame opcode _ _ => some (infoCmd opcode false)
  | .checksum _ | .decode _ | .classify _ | .wake | .idle | .sleep => none

/-- The first phase of an operation (R17): WAKE, IDLE and SLEEP have no operands to check. -/
def firstPhase (i : Instr) : Phase :=
  match i with
  | .wake => .wakeWrite
  | .idle | .sleep => .powerWrite
  | .checksum _ | .encode _ _ _ _ | .decode _ | .classify _ | .execute _ _ _ _ _ | .selftest | .info
  | .selftestFrame _ _ _ | .infoFrame _ _ _ => .check

/-- The frame an operation puts into `txbuf` ready made: the bytes of a wire frame handed over for sending
(log entry 6). Every other operation encodes its Command. -/
def readyFrame (i : Instr) : Option (List Byte) :=
  match i with
  | .selftestFrame opcode crcLo crcHi => some (selftestFrameBytes opcode crcLo crcHi)
  | .infoFrame opcode crcLo crcHi => some (infoFrameBytes opcode crcLo crcHi)
  | .checksum _ | .encode _ _ _ _ | .decode _ | .classify _ | .wake | .idle | .sleep | .execute _ _ _ _ _
  | .selftest | .info => none

/-- Does the operation interpret what the exchange returned (R17 phase `Interpret`, R150, R153)? -/
def interprets (i : Option Instr) : Bool :=
  match i with
  | some .selftest | some .info => true
  | _ => false

end Sys2Proof.Machine
end

