-- ==== Sys2Proof/Machine/Flags.lean ====
section
/-! DEFINITION. The block has no condition codes (spec/10_state.md R20). What takes their place: the status
taxonomy with its non-error and hard flags (spec/41_codec.md R97, R98), the self-test mask bits
(spec/44_highlevel.md R151), and the numbers of the status and result ports (R11, R64). -/

namespace Sys2Proof.Machine

/-- `classify(code)` (R97): the fixed mapping of R57; every other byte is unknown (R58). -/
def classify (code : Byte) : Category :=
  if code = 0x00 then .success
  else if code = 0x01 then .verifyMiscompare
  else if code = 0x03 then .parseError
  else if code = 0x05 then .eccFault
  else if code = 0x07 then .selfTestError
  else if code = 0x08 then .healthTestError
  else if code = 0x0F then .executionError
  else if code = 0x11 then .beforeFirstCommand
  else if code = 0xEE then .watchdogImminent
  else if code = 0xFF then .communicationError
  else .unknownStatus code

/-- Is the category one of the ten of the table? -/
def Category.known (c : Category) : Bool :=
  match c with
  | .unknownStatus _ => false
  | _ => true

/-- `hard(code)` (R97, R59): the "hard command failure" class; no rule branches on it. -/
def hardFailure (code : Byte) : Bool :=
  !(classify code).known || (code != 0x00 && decide (code ≤ 0x0F)) || code == 0xFF

/-- A non-error outcome in `execute` (R97). -/
def nonErrorInExecute (code : Byte) : Bool := code == 0x00

/-- A non-error outcome in `wake` (R97). -/
def nonErrorInWake (code : Byte) : Bool := code == 0x00 || code == 0x11

/-- The record CLASSIFY returns (R97). -/
def classification (code : Byte) : Classified where
  category := classify code
  nonErrorInExecute := nonErrorInExecute code
  nonErrorInWake := nonErrorInWake code
  hard := hardFailure code

/-- `status_outcome(code, in_wake)` (R98): none is `Ok`. -/
def statusOutcome (code : Byte) (inWake : Bool) : Option Error :=
  if code = 0x00 then none
  else if code = 0x11 ∧ inWake = true then none
  else if (classify code).known then some (.commandStatus code)
  else some (.unknownStatus code)

/-- A set mask bit means that the sub-test failed (R65, R151). -/
def maskVerdict (mask bit : Byte) : Verdict :=
  if mask &&& bit = 0 then .pass else .fail

/-- `selftest_interpret(m)` (R151): five verdicts and the raw mask. -/
def selftestInterpret (mask : Byte) : SelfTestReport where
  rng := maskVerdict mask 0x20
  aes := maskVerdict mask 0x10
  ecdh := maskVerdict mask 0x08
  ecdsa := maskVerdict mask 0x02
  drbg := maskVerdict mask 0x01
  mask := mask

/-- The number of a session value on the status port (R11). -/
def Session.number (s : Session) : Nat :=
  match s with
  | .sleeping => 0
  | .awake => 1
  | .faulted => 2

/-- The number of an error on the result port (R64). -/
def Error.number (e : Error) : Nat :=
  match e with
  | .transport _ => 1
  | .frameTooShort => 2
  | .checksumMismatch => 3
  | .wakeFailed => 4
  | .commandStatus _ => 5
  | .unknownStatus _ => 6
  | .shortResponse => 7
  | .refused _ => 8

/-- The error code of a delivery (R60, R64): 0 is `OK`. -/
def Delivery.code (d : Delivery) : Nat :=
  match d.err with
  | none => 0
  | some e => e.number

end Sys2Proof.Machine
end

