-- ==== Sys2Proof/Machine/Checksum.lean ====
section
/-! DEFINITION. The Checksum Engine's arithmetic (spec/40_checksum.md R81 to R83): one bit, one byte, a byte
sequence. -/

namespace Sys2Proof.Machine

/-- The CRC polynomial `POLY` (R7, R81). -/
def crcPoly : Word := 0x8005

/-- One bit step (R81): bit 15 is sampled before the shift, the XOR is applied after it. -/
def crcBit (acc : Word) (dataBit : Bool) : Word :=
  let carryBit := acc.getLsbD 15
  let shifted := acc <<< 1
  if dataBit != carryBit then shifted ^^^ crcPoly else shifted

/-- The eight bits of a byte, bit 0 first (R82, R34 c; conflict C4). -/
def dataBits (b : Byte) : List Bool :=
  [b.getLsbD 0, b.getLsbD 1, b.getLsbD 2, b.getLsbD 3, b.getLsbD 4, b.getLsbD 5, b.getLsbD 6, b.getLsbD 7]

/-- One byte step (R82). -/
def crcByte (acc : Word) (b : Byte) : Word :=
  (dataBits b).foldl crcBit acc

/-- The accumulator after a byte sequence, first byte first (R83). -/
def crcBytes (acc : Word) (bytes : List Byte) : Word :=
  bytes.foldl crcByte acc

/-- The two bytes read out of the accumulator, low byte first (R83, R34 a). -/
def crcEmit (acc : Word) : List Byte :=
  [acc.setWidth 8, (acc >>> 8).setWidth 8]

/-- `checksum(bytes)` (R83): the accumulator starts at 0. -/
def checksum (bytes : List Byte) : List Byte :=
  crcEmit (crcBytes 0 bytes)

end Sys2Proof.Machine
end

