-- ==== Sys2Proof/Machine/Codec.lean ====
section
/-! DEFINITION. The Packet Codec's functions (spec/41_codec.md R90, R92, R99) and INFO's extraction
(spec/44_highlevel.md R154). -/

namespace Sys2Proof.Machine

/-- The bytes of a command frame before its checksum (R50, R90). `7 + N` fits one byte once `N <= 248` (R51). -/
def commandHead (c : Cmd) : List Byte :=
  [BitVec.ofNat 8 (7 + c.payload.length), c.opcode, c.param1, c.param2.1, c.param2.2] ++ c.payload

/-- `encode(opcode, param1, param2, payload)` (R90). -/
def encodeCommand (c : Cmd) : Except Error (List Byte) :=
  if c.payload.length > maxPayload then .error (.refused .payloadTooLong)
  else .ok (commandHead c ++ checksum (commandHead c))

/-- All but the last two bytes of a frame: the body `decode` checks (R92). -/
def frameBody (input : List Byte) : List Byte :=
  input.take (input.length - 2)

/-- The last two bytes of a frame (R92). -/
def frameCrc (input : List Byte) : List Byte :=
  input.drop (input.length - 2)

/-- `decode(input)` (R92, R93): length before checksum; the count byte is dropped unread (R55); the status is
present exactly for a 4-byte input (R56, R94). -/
def decodeReply (input : List Byte) : Except Error Decoded :=
  if input.length < 4 then .error .frameTooShort
  else if checksum (frameBody input) ≠ frameCrc input then .error .checksumMismatch
  else
    let data := (frameBody input).drop 1
    if input.length > 4 then .ok ⟨data, none⟩ else .ok ⟨data, data.head?⟩

/-- `response_frame(d)` (R99): the reply frame that carries data `d`. No operation of the block builds it. -/
def responseFrame (data : List Byte) : List Byte :=
  let head := BitVec.ofNat 8 (data.length + 3) :: data
  head ++ checksum head

/-- `info_extract(r)` (R154, R66). -/
def infoExtract (r : List Byte) : Except Error InfoReport :=
  if r.length < 13 then .error .shortResponse
  else .ok ⟨r.take 4 ++ (r.drop 8).take 5, (r.drop 4).take 4⟩

end Sys2Proof.Machine
end

