-- ==== Sys2Proof/Machine/Ops.lean ====
section
/-! DEFINITION. The named operations every phase is written in: the two transport calls and the delay
(spec/20_memory.md R31, R32, R40), the accumulator, raising an error (spec/60_exceptions.md R181), delivering
(spec/43_executor.md R140), and the status port (spec/10_state.md R11). -/

namespace Sys2Proof.Machine

/-- The location of a target: every call uses `BUS_ID` (R30, R31). -/
def locate (cfg : Cfg) (t : Target) : Location := ⟨cfg.busId, t.address, t.register⟩

/-- The first `n` bytes of `given`; bytes past its end are free values (R32, R44; log entry 3). -/
def fitBytes (n : Nat) (given : List Byte) (draws : Nat) : List Byte :=
  given.take n ++ (List.range (n - given.length)).map (fun k => Config.freeByte (draws + k))

/-- The bytes an answer lists. -/
def Answer.given (a : Answer) : List Byte :=
  match a with
  | .bytes value => value
  | .ok | .error _ => []

/-- The collaborator's error value, where the call failed. -/
def Answer.failure (a : Answer) : Option Nat :=
  match a with
  | .error e => some e
  | .ok | .bytes _ => none

/-- What a read of `n` bytes returns (R32): never fewer or more than `n` bytes. -/
def Answer.outcome (a : Answer) (n draws : Nat) : ReadOutcome :=
  match a.failure with
  | some e => .failed e
  | none => .got (fitBytes n a.given draws)

/-- How many free bytes a read of `n` bytes draws. -/
def Answer.drawn (a : Answer) (n : Nat) : Nat :=
  match a.failure with
  | some _ => 0
  | none => n - a.given.length

/-- `BusWrite(target, bytes)` (R31): what it returned and the state after; none while it has not returned
(R205; log entry 2). -/
def State.busWrite (s : State) (t : Target) (bytes : List Byte) : Option (Option Nat × State) :=
  match s.answers with
  | [] => none
  | a :: rest =>
    some (a.failure,
      { s with answers := rest, trace := s.trace ++ [.write (locate s.cfg t) bytes a.failure] })

/-- `BusRead(target, n)` (R32). -/
def State.busRead (s : State) (t : Target) (n : Nat) : Option (ReadOutcome × State) :=
  match s.answers with
  | [] => none
  | a :: rest =>
    some (a.outcome n s.draws,
      { s with answers := rest, draws := s.draws + a.drawn n,
               trace := s.trace ++ [.read (locate s.cfg t) n (a.outcome n s.draws)] })

/-- `Delay(T)` (R40): an event of the trace and nothing else, the model having no time. -/
def State.delay (s : State) (duration : Nat) : State :=
  { s with trace := s.trace ++ [.delay duration] }

/-- The sequencer moves to a phase (R8, R17). -/
def State.goto (s : State) (p : Phase) : State := { s with phase := p }

/-- TAKING AN ERROR (R181): `err` takes it unless it holds one already (R18), and there is no result. The rest of
the body is skipped by the phase that raises, which says where the sequencer goes. -/
def State.raise (s : State) (e : Error) : State :=
  match s.err with
  | none => { s with err := some e, result := none }
  | some _ => s

/-- Where a command exchange leads when it ends (R139, R140, R17): to the cleanup where autoWake was asked for, else
to delivery. -/
def bodyExit (autoWake : Bool) : Phase :=
  match autoWake with
  | true => .cleanup
  | false => .done

/-- The end of a command exchange, normal or by an error. -/
def State.leaveBody (s : State) : State := s.goto (bodyExit s.cmd.autoWake)

/-- The Checksum Engine runs over `bytes` (R80, R83): the accumulator starts at 0. -/
def State.sum (s : State) (bytes : List Byte) : State := { s with acc := crcBytes 0 bytes }

/-- The accumulator after `decode` (R92, R93): no checksum is computed for fewer than 4 bytes. -/
def State.sumReply (s : State) (input : List Byte) : State :=
  if input.length < 4 then s else s.sum (frameBody input)

/-- DELIVER (R140, R181): `err` and `result` go to the result port, the result only where there is no error (R63);
`busy` is cleared and the sequencer is idle again. -/
def State.deliver (s : State) : State :=
  { s with
    delivered := s.delivered ++ [⟨s.err, if s.err.isSome then none else s.result⟩]
    busy := false
    phase := .idle
    op := none }

/-- The status port (R11): `session` may be read whenever the block is not busy. -/
def State.statusPort (s : State) : Option Session :=
  if s.busy then none else some s.session

end Sys2Proof.Machine
end

