-- ==== Sys2Proof/Machine/Pure.lean ====
section
/-! DEFINITION. The work of the pure operations CHECKSUM, ENCODE, DECODE and CLASSIFY, done in the phase `Check`
(spec/10_state.md R17). None touches the transport or `session` (R23). -/

namespace Sys2Proof.Machine

/-- CHECKSUM (R80): the result is read out of the accumulator. -/
def checkChecksum (bytes : List Byte) (s : State) : State :=
  let s' := s.sum bytes
  { s' with result := some (.bytes (crcEmit s'.acc)) }.goto .done

/-- The encode step (R90, R134): the latched Command becomes the frame in `txbuf`, and the accumulator ran over
everything before the checksum. -/
def State.buildFrame (s : State) : Except Error State :=
  match encodeCommand s.cmd with
  | .error e => .error e
  | .ok frame => .ok { s.sum (commandHead s.cmd) with txbuf := frame }

/-- ENCODE (R90): the frame, or `Refused(PayloadTooLong)`. -/
def checkEncode (s : State) : State :=
  match s.buildFrame with
  | .error e => (s.raise e).goto .done
  | .ok s' => { s' with result := some (.bytes s'.txbuf) }.goto .done

/-- DECODE (R92): no status is turned into an error here (R94). -/
def checkDecode (bytes : List Byte) (s : State) : State :=
  match decodeReply bytes with
  | .error e => ((s.sumReply bytes).raise e).goto .done
  | .ok d => { s.sumReply bytes with result := some (.decoded d) }.goto .done

/-- CLASSIFY (R97). -/
def checkClassify (code : Byte) (s : State) : State :=
  { s with result := some (.classified (classification code)) }.goto .done

end Sys2Proof.Machine
end

