-- ==== Sys2Proof/Machine/SessionPhases.lean ====
section
/-! DEFINITION. The Session State Machine (spec/42_session.md): the wake handshake's three phases, and the one-shot
write of IDLE and SLEEP. Only these phases and the cleanup write `session` (spec/10_state.md R11). -/

namespace Sys2Proof.Machine

/-- `WakeWrite` (R112): a zero-length write whose outcome is ignored. -/
def phaseWakeWrite (s : State) : State :=
  match s.busWrite s.cfg.wakeTarget [] with
  | none => s
  | some (_, s') => s'.goto .wakeSettle

/-- `WakeSettle` (R113): an unconditional delay. -/
def phaseWakeSettle (s : State) : State :=
  (s.delay s.cfg.tWakeSettle).goto .wakeRead

/-- The handshake failed (R115): Faulted; WAKE ends, EXECUTE goes to its cleanup (R133). -/
def State.wakeFails (s : State) (e : Error) : State :=
  ({ s with session := .faulted }.raise e).goto (if s.op = some Instr.wake then .done else .cleanup)

/-- The handshake succeeded (R114): Awake; WAKE ends, EXECUTE goes on to encode (R133). -/
def State.wakeSucceeds (s : State) : State :=
  { s with session := .awake }.goto (if s.op = some Instr.wake then .done else .encode)

/-- The verdict on the four bytes of the wake reply (R114, R115): anything but status Success or
BeforeFirstCommand under a good checksum fails. -/
def wakeReplyGood (reply : List Byte) : Bool :=
  match decodeReply reply with
  | .error _ => false
  | .ok d =>
    match d.status with
    | none => false
    | some code => (statusOutcome code true).isNone

/-- `WakeRead` (R111, R114, R115): exactly 4 bytes from `CMD_TARGET`; a transport error is passed through, every
other failure is `WakeFailed`. -/
def phaseWakeRead (s : State) : State :=
  match s.busRead s.cfg.cmdTarget 4 with
  | none => s
  | some (.failed e, s') => s'.wakeFails (.transport e)
  | some (.got reply, s') =>
    let s'' := { s' with rxbuf := reply }.sumReply reply
    if wakeReplyGood reply then s''.wakeSucceeds else s''.wakeFails .wakeFailed

/-- `idle()`'s write and its effect on `session` (R116): Sleeping whatever the write answered and whatever
`session` was. -/
def State.powerDown (s : State) (t : Target) : Option (Option Nat × State) :=
  match s.busWrite t [] with
  | none => none
  | some (failure, s') => some (failure, { s' with session := .sleeping })

/-- `PowerWrite` (R116, R117): SLEEP writes to its own target, IDLE to the idle target; a failed write is
delivered. -/
def phasePowerWrite (s : State) : State :=
  match s.powerDown (if s.op = some Instr.sleep then s.cfg.sleepTarget else s.cfg.idleTarget) with
  | none => s
  | some (none, s') => s'.goto .done
  | some (some e, s') => (s'.raise (.transport e)).goto .done

end Sys2Proof.Machine
end

