-- ==== Sys2Proof/Machine/Executor.lean ====
section
/-! DEFINITION. The Command Executor's phases (spec/43_executor.md R132 to R140), each named after its row of
spec/10_state.md R17. A phase whose transport call has not returned leaves the state as it is. -/

namespace Sys2Proof.Machine

/-- The operand checks of EXECUTE (R132): the payload length first, then the session gate; neither makes an event. -/
def checkCommand (s : State) : State :=
  if s.cmd.payload.length > maxPayload then (s.raise (.refused .payloadTooLong)).goto .done
  else if s.cmd.autoWake = false ∧ s.session ≠ .awake then (s.raise (.refused .notAwake)).goto .done
  else s.goto (if s.cmd.autoWake then .wakeWrite else .encode)

/-- `Check` (R17): the pure operations do their work here, the commands are checked, an unknown selector is refused
(R62). WAKE, IDLE and SLEEP never come here (R17; log entry 24). -/
def phaseCheck (s : State) : State :=
  match s.op with
  | none => (s.raise (.refused .unknownOp)).goto .done
  | some (.checksum bytes) => checkChecksum bytes s
  | some (.encode _ _ _ _) => checkEncode s
  | some (.decode bytes) => checkDecode bytes s
  | some (.classify code) => checkClassify code s
  | some (.execute _ _ _ _ _) => checkCommand s
  | some .selftest => checkCommand s
  | some .info => checkCommand s
  | some (.selftestFrame _ _ _) => checkCommand s
  | some (.infoFrame _ _ _) => checkCommand s
  | some .wake | some .idle | some .sleep => s.goto .done

/-- `Encode` (R134): the frame in `txbuf`, encoded from `cmd`, or the bytes of a wire frame as they stand (log
entry 6). The payload was checked, so encoding does not fail here. -/
def phaseEncode (s : State) : State :=
  match s.op.bind readyFrame with
  | some frame => { s with txbuf := frame }.goto .cmdWrite
  | none =>
    match s.buildFrame with
    | .error e => (s.raise e).leaveBody
    | .ok s' => s'.goto .cmdWrite

/-- `CmdWrite` (R134): the whole frame in one write. -/
def phaseCmdWrite (s : State) : State :=
  match s.busWrite s.cfg.cmdTarget s.txbuf with
  | none => s
  | some (none, s') => s'.goto .execWait
  | some (some e, s') => (s'.raise (.transport e)).leaveBody

/-- `ExecWait` (R135). -/
def phaseExecWait (s : State) : State :=
  (s.delay s.cfg.tExec).goto .readLen

/-- `ReadLen` (R136): one byte, any value. -/
def phaseReadLen (s : State) : State :=
  match s.busRead s.cfg.cmdTarget 1 with
  | none => s
  | some (.failed e, s') => (s'.raise (.transport e)).leaveBody
  | some (.got reply, s') => { s' with rxlen := reply.headD 0 }.goto .readBody

/-- How many bytes the second read asks for, where it is issued (R137). `restart` is the other reading of D7. -/
def bodyReadLength (mode : RxMode) (rxlen : Byte) : Option Nat :=
  match mode with
  | .remainder => if rxlen.toNat ≥ 2 then some (rxlen.toNat - 1) else none
  | .restart => some rxlen.toNat

/-- The frame handed to the decoder (R137; D7 for `restart`). -/
def replyFrame (mode : RxMode) (rxlen : Byte) (secondRead : List Byte) : List Byte :=
  match mode with
  | .remainder => rxlen :: secondRead
  | .restart => secondRead

/-- `ReadBody` (R137): the rest of the frame; no read where nothing follows. -/
def phaseReadBody (s : State) : State :=
  match bodyReadLength s.cfg.rxMode s.rxlen with
  | none => { s with rxbuf := replyFrame s.cfg.rxMode s.rxlen [] }.goto .decode
  | some n =>
    match s.busRead s.cfg.cmdTarget n with
    | none => s
    | some (.failed e, s') => (s'.raise (.transport e)).leaveBody
    | some (.got body, s') => { s' with rxbuf := replyFrame s.cfg.rxMode s.rxlen body }.goto .decode

/-- What a decoded reply gives the caller of `execute` (R138): data uninterpreted, or the status policy. -/
def replyValue (reply : List Byte) : Except Error (List Byte) :=
  match decodeReply reply with
  | .error e => .error e
  | .ok d =>
    match d.status with
    | none => .ok d.data
    | some code =>
      match statusOutcome code false with
      | none => .ok d.data
      | some e => .error e

/-- `Decode` (R138). -/
def phaseDecode (s : State) : State :=
  let s' := s.sumReply s.rxbuf
  match replyValue s.rxbuf with
  | .error e => (s'.raise e).leaveBody
  | .ok data => { s' with result := some (.bytes data) }.leaveBody

/-- `Cleanup` (R139): the idle write, its outcome discarded; then SELFTEST and INFO interpret, where no error
stands. -/
def phaseCleanup (s : State) : State :=
  match s.powerDown s.cfg.idleTarget with
  | none => s
  | some (_, s') => s'.goto (if interprets s.op && s.err.isNone then .interpret else .done)

end Sys2Proof.Machine
end

