-- ==== Sys2Proof/Machine/HighLevel.lean ====
section
/-! DEFINITION. The interpretation of the bytes EXECUTE returned (spec/44_highlevel.md R151, R154). -/

namespace Sys2Proof.Machine

/-- SELFTEST (R150): byte 0 is interpreted, further bytes are ignored. `decode` never gives an empty result, so
there is a byte 0. -/
def interpretSelftest (s : State) : State :=
  match s.result with
  | some (.bytes (mask :: _)) => { s with result := some (.selfTest (selftestInterpret mask)) }
  | _ => s

/-- INFO (R153, R154). -/
def interpretInfo (s : State) : State :=
  match s.result with
  | some (.bytes r) =>
    match infoExtract r with
    | .error e => s.raise e
    | .ok report => { s with result := some (.info report) }
  | _ => s

/-- `Interpret` (R17). -/
def phaseInterpret (s : State) : State :=
  (match s.op with
    | some .selftest => interpretSelftest s
    | some .info => interpretInfo s
    | _ => s).goto .done

end Sys2Proof.Machine
end

