-- ==== Sys2Proof/Machine/Sequencer.lean ====
section
/-! DEFINITION. The sequencer (spec/10_state.md R17): one phase, a bounded run of phases, acceptance of a request
(spec/43_executor.md R131) and its holding while the block is busy (spec/20_memory.md R41). -/

namespace Sys2Proof.Machine

/-- One phase of the operation in flight. -/
def tick (s : State) : State :=
  match s.phase with
  | .idle => s
  | .check => phaseCheck s
  | .wakeWrite => phaseWakeWrite s
  | .wakeSettle => phaseWakeSettle s
  | .wakeRead => phaseWakeRead s
  | .encode => phaseEncode s
  | .cmdWrite => phaseCmdWrite s
  | .execWait => phaseExecWait s
  | .readLen => phaseReadLen s
  | .readBody => phaseReadBody s
  | .decode => phaseDecode s
  | .interpret => phaseInterpret s
  | .cleanup => phaseCleanup s
  | .powerWrite => phasePowerWrite s
  | .done => s.deliver

/-- `n` phases. -/
def ticks (n : Nat) (s : State) : State :=
  match n with
  | 0 => s
  | k + 1 => ticks k (tick s)

/-- The longest path of R17 from acceptance to delivery: SELFTEST or INFO with every phase from `Check` to `Done`. -/
def longestPath : Nat := 13

/-- The operation in flight runs to its delivery, or to a transport call that has not returned (R205). -/
def settle (s : State) : State := ticks longestPath s

/-- Acceptance (R131, R42): `busy` is set, the operands are latched, `err` and `result` are cleared (R18). `none`
is a request whose selector names no operation (R62). DESIGN CHOICE (log entry 29): the operands are latched before
they are checked, so a request that `Check` refuses leaves them in `cmd`, a payload of more than 248 bytes whole. -/
def latch (i : Option Instr) (s : State) : State :=
  { s with
    busy := true
    op := i
    cmd := ((i.bind (fun j => commandOf j s.cfg)).getD s.cmd)
    err := none
    result := none
    phase := (i.map firstPhase).getD .check }

/-- A request presented while the block is busy is held (R41). DESIGN CHOICE (log entry 30): what is held is the request
as presented; the caller neither changes nor withdraws it before it is accepted. -/
def hold (w : PortWord) (s : State) : State := { s with held := s.held ++ [w] }

/-- A request with its operands meets the block: accepted and run when the block is not busy, held when it is. -/
def perform (i : Instr) (s : State) : State :=
  if s.busy then hold (encode i) s else settle (latch (some i) s)

/-- A request that names no operation (R62): answered with `Refused(UnknownOp)`, no event. -/
def performUnknown (s : State) : State := settle (latch none s)

/-- The held list without entry `k`, and that entry. -/
def takeAt (k : Nat) (held : List PortWord) : Option (PortWord × List PortWord) :=
  match held[k]? with
  | none => none
  | some w => some (w, held.eraseIdx k)

/-- The next request to be accepted, taken off the held list (R41): any of them, by a free value; where one is
held there is no choice. -/
def takeHeld (s : State) : Option (PortWord × State) :=
  match s.held with
  | [] => none
  | [w] => some (w, { s with held := [] })
  | w :: ws =>
    match takeAt (Config.pickHeld s.draws % (w :: ws).length) (w :: ws) with
    | none => none
    | some (chosen, rest) => some (chosen, { s with held := rest, draws := s.draws + 1 })

end Sys2Proof.Machine
end

