-- ==== Sys2Proof/Machine/Requests.lean ====
section
/-! DEFINITION. The meaning of each operation. Each is the whole operation as one step (log entry 1): acceptance, its
phases in the order of spec/10_state.md R17, and delivery; the phases are the shared operations of the other files
of this folder. While the block is busy the request is held (spec/20_memory.md R41). -/

namespace Sys2Proof.Machine

/-- CHECKSUM (R80): `Check` by `checkChecksum`, `Done`. -/
def execChecksum (bytes : List Byte) (s : State) : Host.Outcome State Fault Refusal :=
  .next (perform (.checksum bytes) s)

/-- ENCODE (R90): `Check` by `checkEncode`, `Done`. -/
def execEncode (opcode param1 : Byte) (param2 : Byte × Byte) (payload : List Byte) (s : State) :
    Host.Outcome State Fault Refusal :=
  .next (perform (.encode opcode param1 param2 payload) s)

/-- DECODE (R92): `Check` by `checkDecode`, `Done`. -/
def execDecode (bytes : List Byte) (s : State) : Host.Outcome State Fault Refusal :=
  .next (perform (.decode bytes) s)

/-- CLASSIFY (R97): `Check` by `checkClassify`, `Done`. -/
def execClassify (code : Byte) (s : State) : Host.Outcome State Fault Refusal :=
  .next (perform (.classify code) s)

/-- WAKE (R111): `WakeWrite`, `WakeSettle`, `WakeRead`, `Done`. -/
def execWake (s : State) : Host.Outcome State Fault Refusal :=
  .next (perform .wake s)

/-- IDLE (R116): `PowerWrite` to the idle target, `Done`. -/
def execIdle (s : State) : Host.Outcome State Fault Refusal :=
  .next (perform .idle s)

/-- SLEEP (R117): `PowerWrite` to the sleep target, `Done`. -/
def execSleep (s : State) : Host.Outcome State Fault Refusal :=
  .next (perform .sleep s)

/-- EXECUTE (R130, R140): `Check`, the wake phases if `autoWake`, `Encode` to `Decode`, `Cleanup` if `autoWake`,
`Done`. -/
def execExecute (opcode param1 : Byte) (param2 : Byte × Byte) (payload : List Byte) (autoWake : Bool) (s : State) :
    Host.Outcome State Fault Refusal :=
  .next (perform (.execute opcode param1 param2 payload autoWake) s)

/-- SELFTEST (R150): EXECUTE of the SelfTest command with autoWake, then `Interpret` by `interpretSelftest`. -/
def execSelftest (s : State) : Host.Outcome State Fault Refusal :=
  .next (perform .selftest s)

/-- INFO (R153): EXECUTE of the Info command with autoWake, then `Interpret` by `interpretInfo`. -/
def execInfo (s : State) : Host.Outcome State Fault Refusal :=
  .next (perform .info s)

/-- The SelfTest wire frame (R67, R134 to R138; log entry 6): its command exchange on these bytes, from Awake. -/
def execSelftestFrame (opcode crcLo crcHi : Byte) (s : State) : Host.Outcome State Fault Refusal :=
  .next (perform (.selftestFrame opcode crcLo crcHi) s)

/-- The Info wire frame (R67, R134 to R138; log entry 6): its command exchange on these bytes, from Awake. -/
def execInfoFrame (opcode crcLo crcHi : Byte) (s : State) : Host.Outcome State Fault Refusal :=
  .next (perform (.infoFrame opcode crcLo crcHi) s)

end Sys2Proof.Machine
end

