-- ==== Sys2Proof/Machine/Dispatch.lean ====
section
/-! DEFINITION. One arm per constructor of Instr. -/

namespace Sys2Proof.Machine

def exec (i : Instr) (s : State) : Host.Outcome State Fault Refusal :=
  match i with
  | .checksum bytes => Sys2Proof.Machine.execChecksum bytes s
  | .encode opcode param1 param2 payload => Sys2Proof.Machine.execEncode opcode param1 param2 payload s
  | .decode bytes => Sys2Proof.Machine.execDecode bytes s
  | .classify code => Sys2Proof.Machine.execClassify code s
  | .wake => Sys2Proof.Machine.execWake s
  | .idle => Sys2Proof.Machine.execIdle s
  | .sleep => Sys2Proof.Machine.execSleep s
  | .execute opcode param1 param2 payload autoWake => Sys2Proof.Machine.execExecute opcode param1 param2 payload autoWake s
  | .selftest => Sys2Proof.Machine.execSelftest s
  | .info => Sys2Proof.Machine.execInfo s
  | .selftestFrame opcode crcLo crcHi => Sys2Proof.Machine.execSelftestFrame opcode crcLo crcHi s
  | .infoFrame opcode crcLo crcHi => Sys2Proof.Machine.execInfoFrame opcode crcLo crcHi s

end Sys2Proof.Machine
end

