-- ==== Sys2Proof/Machine/Step.lean ====
section
/-! DEFINITION. One step of the block (spec/10_state.md R12, R17; spec/20_memory.md R41). -/

namespace Sys2Proof.Machine

/-- While an operation is in flight the block goes on with it, as far as the environment has answered. Otherwise it
accepts a held request: an instruction runs, and a request that names no operation is refused on the result port
(R62). With nothing held the block waits in `Idle`. -/
def step (s : State) : Host.Outcome State Fault Refusal :=
  if s.busy then .next (settle s)
  else
    match takeHeld s with
    | none => .next s
    | some (w, s') =>
      match decode w with
      | .ok i => exec i s'
      | .error _ => .next (performUnknown s')

/-- `s` with one instruction presented as the only held request, and the block ready to accept it. -/
def State.withFetchWord (s : State) (nbits w : Nat) : State :=
  { s with held := [portWordOf nbits w], busy := false, phase := .idle }

end Sys2Proof.Machine
end

