-- ==== Sys2Proof/Machine/Environment.lean ====
section
/-! DEFINITION. What the caller and the environment can do to the block (spec/70_reset_and_hazards.md R206,
spec/20_memory.md R44). -/

namespace Sys2Proof.Machine

/-- An input from outside. The caller presents a request or constructs the block; the environment answers a
transport call. There is no input that cancels an operation (R179), and none that changes or withdraws a held request
(log entry 30). -/
inductive Stimulus where
  | present (w : PortWord)
  | answer (a : Answer)
  | construct (cfg : Cfg)
  deriving DecidableEq, Repr

/-- Construction (R22, R200): the block's elements take their reset values; no event, no delivery, and what stands
outside the block stays (log entry 12). -/
def State.rebuild (s : State) (cfg : Cfg) : State :=
  { State.constructed cfg with
    held := s.held, answers := s.answers, trace := s.trace, delivered := s.delivered, draws := s.draws }

/-- The effect of an input. A request may be presented at any time and is held until it is accepted (R41, R206);
construction is admitted only while no operation is in flight (R201). -/
def stimulate (x : Stimulus) (s : State) : Host.Outcome State Fault Refusal :=
  match x with
  | .present w => .next (hold w s)
  | .answer a => .next { s with answers := s.answers ++ [a] }
  | .construct cfg => if s.busy then .refused .resetWhileBusy else .next (s.rebuild cfg)

end Sys2Proof.Machine
end

