-- ==== Sys2Proof/Machine/Reference.lean ====
section
/-! DEFINITION. The pseudocode of the transport operations written down as one function each, as the spec prints it
(spec/42_session.md R111, R116; spec/43_executor.md R140; spec/44_highlevel.md R150, R153), over the part of the
world it touches. It has no phases. Claims compare the sequencer with it. -/

namespace Sys2Proof.Machine

/-- What a run of the pseudocode reads and writes. `events` is the trace it makes. -/
structure World where
  session : Session
  answers : List Answer
  draws : Nat
  events : List Event
  deriving DecidableEq, Repr

/-- How a piece of pseudocode ends: it waits for a transport call that has not returned (R205), an error was raised,
or a value was returned; with the world as it then is. -/
inductive Ran (α : Type) where
  | hung (w : World)
  | raised (e : Error) (w : World)
  | returned (value : α) (w : World)
  deriving DecidableEq, Repr

/-- The next line of the pseudocode; a raise skips it (R140). -/
def Ran.andThen {α β : Type} (r : Ran α) (next : α → World → Ran β) : Ran β :=
  match r with
  | .hung w => .hung w
  | .raised e w => .raised e w
  | .returned value w => next value w

/-- Run the cleanup after the body, whatever the body did, and discard the cleanup's own error (R139). -/
def Ran.finally {α : Type} (r : Ran α) (cleanup : World → Ran Unit) : Ran α :=
  match r with
  | .hung w => .hung w
  | .raised e w =>
    match cleanup w with
    | .hung w' => .hung w'
    | .raised _ w' => .raised e w'
    | .returned _ w' => .raised e w'
  | .returned value w =>
    match cleanup w with
    | .hung w' => .hung w'
    | .raised _ w' => .returned value w'
    | .returned _ w' => .returned value w'

/-- A line whose outcome is ignored (R112). -/
def Ran.ignored (r : Ran Unit) : Ran Unit :=
  match r with
  | .hung w => .hung w
  | .raised _ w => .returned () w
  | .returned _ w => .returned () w

/-- An event is added to the trace. -/
def World.record (w : World) (e : Event) : World := { w with events := w.events ++ [e] }

/-- `BusWrite` (R31). -/
def refWrite (cfg : Cfg) (t : Target) (bytes : List Byte) (w : World) : Ran Unit :=
  match w.answers with
  | [] => .hung w
  | a :: rest =>
    let w' := { w with answers := rest }.record (.write ⟨cfg.busId, t.address, t.register⟩ bytes a.failure)
    match a.failure with
    | some e => .raised (.transport e) w'
    | none => .returned () w'

/-- `BusRead` (R32). -/
def refRead (cfg : Cfg) (t : Target) (n : Nat) (w : World) : Ran (List Byte) :=
  match w.answers with
  | [] => .hung w
  | a :: rest =>
    let outcome := a.outcome n w.draws
    let w' := { w with answers := rest, draws := w.draws + a.drawn n }.record
      (.read ⟨cfg.busId, t.address, t.register⟩ n outcome)
    match outcome with
    | .failed e => .raised (.transport e) w'
    | .got bytes => .returned bytes w'

/-- The last lines of `wake()` (R111, R114, R115): the verdict on the 4 bytes. -/
def refJudgeWake (rxbuf : List Byte) (w : World) : Ran Unit :=
  match decodeReply rxbuf with
  | .error _ => .raised .wakeFailed { w with session := .faulted }
  | .ok d =>
    if d.status = some 0x00 ∨ d.status = some 0x11 then .returned () { w with session := .awake }
    else .raised .wakeFailed { w with session := .faulted }

/-- `wake()` (R111). -/
def refWake (cfg : Cfg) (w : World) : Ran Unit :=
  (refWrite cfg cfg.wakeTarget [] w).ignored.andThen fun _ w =>
    match refRead cfg cfg.cmdTarget 4 (w.record (.delay cfg.tWakeSettle)) with
    | .hung w => .hung w
    | .raised e w => .raised e { w with session := .faulted }
    | .returned r w => refJudgeWake r w

/-- `idle()` and `sleep()` (R116, R117). -/
def refPower (cfg : Cfg) (t : Target) (w : World) : Ran Unit :=
  match refWrite cfg t [] w with
  | .hung w => .hung w
  | .raised e w => .raised e { w with session := .sleeping }
  | .returned _ w => .returned () { w with session := .sleeping }

/-- The last lines of `body` in R140: decode, verify, map the status (R138). -/
def refDecode (rxbuf : List Byte) (w : World) : Ran (List Byte) :=
  match decodeReply rxbuf with
  | .error e => .raised e w
  | .ok d =>
    match d.status with
    | none => .returned d.data w
    | some code =>
      match statusOutcome code false with
      | none => .returned d.data w
      | some e => .raised e w

/-- The command exchange inside `body` of R140: encode, write, wait, read the length, read the rest, decode, map
the status. -/
def refExchange (cfg : Cfg) (c : Cmd) (w : World) : Ran (List Byte) :=
  (refWrite cfg cfg.cmdTarget (commandHead c ++ checksum (commandHead c)) w).andThen fun _ w =>
  (refRead cfg cfg.cmdTarget 1 (w.record (.delay cfg.tExec))).andThen fun r1 w =>
  let rxlen := r1.headD 0
  (match bodyReadLength cfg.rxMode rxlen with
    | none => Ran.returned [] w
    | some n => refRead cfg cfg.cmdTarget n w).andThen fun r2 w =>
  refDecode (replyFrame cfg.rxMode rxlen r2) w

/-- `execute(opcode, param1, param2, payload, autoWake)` (R140). -/
def refExecute (cfg : Cfg) (c : Cmd) (w : World) : Ran (List Byte) :=
  if c.payload.length > 248 then .raised (.refused .payloadTooLong) w
  else if c.autoWake = false ∧ w.session ≠ .awake then .raised (.refused .notAwake) w
  else if c.autoWake then
    ((refWake cfg w).andThen fun _ w => refExchange cfg c w).finally (refPower cfg cfg.idleTarget)
  else refExchange cfg c w

/-- `selftest()` (R150). -/
def refSelftest (cfg : Cfg) (w : World) : Ran SelfTestReport :=
  (refExecute cfg ⟨cfg.opcSelftest, 0x3B, (0x00, 0x00), [], true⟩ w).andThen fun r w =>
    .returned (selftestInterpret (r.headD 0)) w

/-- `info()` (R153). -/
def refInfo (cfg : Cfg) (w : World) : Ran InfoReport :=
  (refExecute cfg ⟨cfg.opcRead, 0x80, (0x00, 0x00), [], true⟩ w).andThen fun r w =>
    match infoExtract r with
    | .error e => .raised e w
    | .ok report => .returned report w

end Sys2Proof.Machine
end

