-- ==== Sys2Proof/Safety.lean ====
section
/-! DEFINITION. The terms claims are stated in: the arrows of the sequencer, the consistency of a state, the states a
run can reach, and the agreement of a step with the pseudocode. -/

namespace Sys2Proof.Machine

/-- The only moves between phases (spec/10_state.md R17, last column of its table). -/
def phaseArrows (p : Phase) : List Phase :=
  match p with
  | .idle => [.check, .wakeWrite, .powerWrite]
  | .check => [.wakeWrite, .encode, .done]
  | .wakeWrite => [.wakeSettle]
  | .wakeSettle => [.wakeRead]
  | .wakeRead => [.encode, .cleanup, .done]
  | .encode => [.cmdWrite]
  | .cmdWrite => [.execWait, .cleanup, .done]
  | .execWait => [.readLen]
  | .readLen => [.readBody, .cleanup, .done]
  | .readBody => [.decode, .cleanup, .done]
  | .decode => [.cleanup, .done]
  | .interpret => [.done]
  | .cleanup => [.interpret, .done]
  | .powerWrite => [.done]
  | .done => [.idle]

/-- The phases of the command exchange (R134 to R138). -/
def exchangePhases : List Phase := [.encode, .cmdWrite, .execWait, .readLen, .readBody, .decode]

/-- The phases of the wake handshake (R111). -/
def wakePhases : List Phase := [.wakeWrite, .wakeSettle, .wakeRead]

/-- The phases in which a transport call may be waited for. -/
def transportPhases : List Phase :=
  [.wakeWrite, .wakeRead, .cmdWrite, .readLen, .readBody, .cleanup, .powerWrite]

/-- The phases an operation passes through (R17). -/
def phasesOf (op : Option Instr) : List Phase :=
  match op with
  | none => [.check, .done]
  | some (.checksum _) | some (.encode _ _ _ _) | some (.decode _) | some (.classify _) => [.check, .done]
  | some .wake => wakePhases ++ [.done]
  | some .idle | some .sleep => [.powerWrite, .done]
  | some (.execute _ _ _ _ true) => [.check] ++ wakePhases ++ exchangePhases ++ [.cleanup, .done]
  | some (.execute _ _ _ _ false) => [.check] ++ exchangePhases ++ [.done]
  | some .selftest | some .info => [.check] ++ wakePhases ++ exchangePhases ++ [.cleanup, .interpret, .done]
  | some (.selftestFrame _ _ _) | some (.infoFrame _ _ _) => [.check] ++ exchangePhases ++ [.done]

/-- Does the operation wake and release the device around its exchange (R133, R139, R150, R153)? -/
def autoWakes (op : Option Instr) : Bool :=
  match op with
  | some (.execute _ _ _ _ autoWake) => autoWake
  | some .selftest | some .info => true
  | _ => false

/-- Is the error a refusal of the request (R178)? -/
def isRefusal (err : Option Error) : Bool :=
  match err with
  | some (.refused _) => true
  | _ => false

/-- What holds of every state a run reaches: the sequencer, the latched request and the buffers fit together. -/
structure Consistent (s : State) : Prop where
  /-- `busy` is 1 exactly while an operation is in flight (R12, R17). -/
  busy_iff : s.busy = true ↔ s.phase ≠ .idle
  /-- Between operations no request is latched. -/
  idle_op : s.phase = .idle → s.op = none
  /-- An operation is in one of its own phases (R17). -/
  phase_mem : s.phase ≠ .idle → s.phase ∈ phasesOf s.op
  /-- `cmd` is the Command of the operation in flight (R14, R42). -/
  cmd_latched : ∀ i c, s.op = some i → commandOf i s.cfg = some c → s.cmd = c
  /-- Until a step fails or the last step is done there is neither error nor result (R18). -/
  fresh : s.phase ∈ [Phase.check, .powerWrite] ++ wakePhases ++ exchangePhases → s.err = none ∧ s.result = none
  /-- An error leaves no result (R63). -/
  no_result : s.err ≠ none → s.result = none
  /-- A command is only exchanged from Awake (R119). -/
  awake : s.phase ∈ exchangePhases → s.session = .awake
  /-- The payload was checked before the first event (R132). -/
  payload : s.phase ∈ wakePhases ++ exchangePhases → s.op ≠ some .wake → s.cmd.payload.length ≤ maxPayload
  /-- What is written is the frame of the latched Command (R134), or the wire frame handed over. -/
  frame : s.phase = .cmdWrite →
    s.txbuf = (s.op.bind readyFrame).getD (commandHead s.cmd ++ checksum (commandHead s.cmd))
  /-- The decoder gets a frame whose first byte is its length, or one byte (R137, R55). -/
  reply : s.phase = .decode → s.cfg.rxMode = .remainder →
    s.rxbuf.head? = some s.rxlen ∧ s.rxbuf.length = max 1 s.rxlen.toNat
  /-- The cleanup and the interpretation follow either an error or at least one byte of data (R138). -/
  outcome : s.phase = .cleanup ∨ s.phase = .interpret → s.err = none → ∃ m r, s.result = some (.bytes (m :: r))
  /-- The interpretation runs only without an error (R17). -/
  interpret : s.phase = .interpret → s.err = none
  /-- After the cleanup the session is Sleeping, unless the request was refused (R142). -/
  released : s.phase = .interpret ∨ s.phase = .done → autoWakes s.op = true → isRefusal s.err = false →
    s.session = .sleeping

/-- The states that the block and the outside can bring about from reset. -/
inductive Reachable : State → Prop where
  | reset (cfg : Cfg) : Reachable (State.constructed cfg)
  | step (s t : State) : Reachable s → step s = .next t → Reachable t
  | stimulus (x : Stimulus) (s t : State) : Reachable s → stimulate x s = .next t → Reachable t

/-- The part of a state that the pseudocode reads. -/
def State.world (s : State) : World := ⟨s.session, s.answers, s.draws, []⟩

/-- State `t`, reached from `s`, shows the world `w` of the pseudocode: the same session, the same events in the same
order, the same answers and free values consumed. -/
def Reflects (s t : State) (w : World) : Prop :=
  t.session = w.session ∧ t.trace = s.trace ++ w.events ∧ t.answers = w.answers ∧ t.draws = w.draws

/-- State `t` is what the pseudocode, begun in `s`, says: it shows the same world after the same one delivery; or,
where a transport call has not returned, the operation is still in flight in a phase that makes a transport call,
nothing is delivered, and `t` shows the world in which the pseudocode waits. -/
def Agrees {α : Type} (s t : State) (r : Ran α) (value : α → Option Result) : Prop :=
  match r with
  | .hung w => t.busy = true ∧ t.phase ∈ transportPhases ∧ t.delivered = s.delivered ∧ Reflects s t w
  | .raised e w =>
    t.busy = false ∧ t.phase = .idle ∧ t.delivered = s.delivered ++ [⟨some e, none⟩] ∧ Reflects s t w
  | .returned v w =>
    t.busy = false ∧ t.phase = .idle ∧ t.delivered = s.delivered ++ [⟨none, value v⟩] ∧ Reflects s t w

/-- The state in which an operation begun in `s` has delivered `err` and `result` (R140): the delivery is made, and
`busy`, the phase and the latched request are as between operations. -/
def State.ended (s : State) (err : Option Error) (result : Option Result) : State :=
  { s with err := err, result := result, op := none, phase := .idle, busy := false,
           delivered := s.delivered ++ [⟨err, result⟩] }

/-- The 4-byte wake replies that succeed (R114). -/
def GoodWakeReply (r : List Byte) : Prop :=
  ∃ cc ss : Byte, (ss = 0x00 ∨ ss = 0x11) ∧ r = [cc, ss] ++ checksum [cc, ss]

/-- The events of a wake handshake (R111): what the write and the read answered. -/
def wakeEvents (cfg : Cfg) (failure : Option Nat) (outcome : ReadOutcome) : List Event :=
  [.write (locate cfg cfg.wakeTarget) [] failure, .delay cfg.tWakeSettle,
   .read (locate cfg cfg.cmdTarget) 4 outcome]

/-- The events of a command exchange up to the length read (R134 to R136). -/
def sendEvents (cfg : Cfg) (frame : List Byte) (outcome : ReadOutcome) : List Event :=
  [.write (locate cfg cfg.cmdTarget) frame none, .delay cfg.tExec, .read (locate cfg cfg.cmdTarget) 1 outcome]

/-- The idle write at the end of every autoWake call (R139). -/
def idleEvent (cfg : Cfg) (failure : Option Nat) : Event :=
  .write (locate cfg cfg.idleTarget) [] failure

/-- A transport call or delay without the environment's answer, as spec/43_executor.md R143 writes traces. -/
inductive Shape where
  | write (loc : Location) (n : Nat)
  | read (loc : Location) (n : Nat)
  | delay (duration : Nat)
  deriving DecidableEq, Repr

/-- The shape of an event (R143): `W(t, n)`, `R(t, n)`, `D(T)`. -/
def Event.shape (e : Event) : Shape :=
  match e with
  | .write loc bytes _ => .write loc bytes.length
  | .read loc n _ => .read loc n
  | .delay duration => .delay duration

end Sys2Proof.Machine
end

