-- ==== Sys2Proof/WellFormed.lean ====
section
/-! DEFINITION. What the spec asks of a request that is to run: a payload that fits (spec/30_encoding.md R51), and
for a wire frame the checksum its encoding prescribes (R53, R67). A request that breaks the first is still
answered, with `Refused(PayloadTooLong)` (R132). -/

namespace Sys2Proof

/-- `N <= 248` (R51). -/
def payloadFits (payload : List Byte) : Bool :=
  payload.length ≤ maxPayload

/-- The last two bytes are the checksum of all the bytes before them (R53). -/
def frameChecksumGood (frame : List Byte) : Bool :=
  Machine.checksum (frame.take (frame.length - 2)) == frame.drop (frame.length - 2)

/-- The static checks on an instruction. -/
def Instr.wellFormed (i : Instr) : Bool :=
  match i with
  | .checksum _ => true
  | .encode _ _ _ payload => payloadFits payload
  | .decode _ => true
  | .classify _ => true
  | .wake => true
  | .idle => true
  | .sleep => true
  | .execute _ _ _ payload _ => payloadFits payload
  | .selftest => true
  | .info => true
  | .selftestFrame opcode crcLo crcHi => frameChecksumGood (selftestFrameBytes opcode crcLo crcHi)
  | .infoFrame opcode crcLo crcHi => frameChecksumGood (infoFrameBytes opcode crcLo crcHi)

end Sys2Proof
end

