-- ==== Sys2Proof/Certificates/Slice0/Obligations.lean ====
section
/-! DEFINITION. The statements for the provers. A statement about one operation names in its docstring the rules of
spec/ it formalises. Answers of the environment that list exactly the bytes a read asks for stand in the statements
written out; every other answer is covered by the refinement statements. -/

open Sys2Proof Sys2Proof.Machine

/-! ### Encodings -/

/-- R61, R67: the ten selectors and the two wire frames, as spec/opcode_table.json numbers their bits. -/
def Obligations.TableWordsDecode : Prop :=
  decodeTableWord 8 0x01 = some (.checksum []) ∧ decodeTableWord 8 0x02 = some (.encode 0 0 (0, 0) []) ∧
  decodeTableWord 8 0x03 = some (.decode []) ∧ decodeTableWord 8 0x04 = some (.classify 0) ∧
  decodeTableWord 8 0x10 = some .wake ∧ decodeTableWord 8 0x11 = some .idle ∧
  decodeTableWord 8 0x12 = some .sleep ∧ decodeTableWord 8 0x20 = some (.execute 0 0 (0, 0) [] false) ∧
  decodeTableWord 8 0x30 = some .selftest ∧ decodeTableWord 8 0x31 = some .info ∧
  decodeTableWord 56 0xFB9D00003B7707 = some (.selftestFrame 0x77 0x9D 0xFB) ∧
  decodeTableWord 56 0xAD090000800207 = some (.infoFrame 0x02 0x09 0xAD) ∧ decodeTableWord 8 0x05 = none

/-- No operand of any operation is lost between the encoder and the decoder. -/
def Obligations.DecodeOfEncodeIsIdentity : Prop :=
  ∀ i : Instr, decode (encode i) = .ok i

/-- The operand ports that R61 lists for a selector, the other ports at zero or empty (log entry 5). -/
def listedPorts (selector : Byte) (o : Operands) : Operands :=
  if selector = 0x01 ∨ selector = 0x03 then { bytes := o.bytes }
  else if selector = 0x02 then { opcode := o.opcode, param1 := o.param1, param2 := o.param2, payload := o.payload }
  else if selector = 0x04 then { code := o.code }
  else if selector = 0x20 then
    { opcode := o.opcode, param1 := o.param1, param2 := o.param2, payload := o.payload, autoWake := o.autoWake }
  else {}

/-- Each presented word has at most one meaning: a frame is the encoding of what it decodes to, and so is a request but
for the operand ports that R61 does not list for its selector, which the encoder leaves at zero (log entry 5). -/
def Obligations.DecodedWordsEncodeBack : Prop :=
  (∀ (bytes : List Byte) (i : Instr), decode (.frame bytes) = .ok i → encode i = .frame bytes) ∧
  (∀ (selector : Byte) (o : Operands) (i : Instr), decode (.request selector o) = .ok i →
    encode i = .request selector (listedPorts selector o))

/-- R62, and log entry 8 for the frame port: which requests name no operation, and that the block answers the one it
takes, alone or from among several, with `Refused(UnknownOp)` and does nothing else. -/
def Obligations.UnknownSelectorIsRefused : Prop :=
  (∀ (selector : Byte) (o : Operands),
    selector ∉ [0x01, 0x02, 0x03, 0x04, 0x10, 0x11, 0x12, 0x20, 0x30, 0x31] →
    decode (.request selector o) = .error (.unknownOp selector)) ∧
  (∀ bytes : List Byte,
    (∀ opcode lo hi : Byte, bytes ≠ [0x07, opcode, 0x3B, 0x00, 0x00, lo, hi] ∧
      bytes ≠ [0x07, opcode, 0x80, 0x00, 0x00, lo, hi]) →
    decode (.frame bytes) = .error .notACommandFrame) ∧
  (∀ (s s' : State) (w : PortWord) (e : DecodeError), s.busy = false → takeHeld s = some (w, s') →
    decode w = .error e → step s = .next (s'.ended (some (.refused .unknownOp)) none))

/-! ### The Checksum Engine -/

/-- R80, R83: CHECKSUM completes from every session state and delivers the accumulator, low byte first. -/
def Obligations.ChecksumDelivers : Prop :=
  ∀ (s : State) (bytes : List Byte), s.busy = false →
    exec (.checksum bytes) s =
      .next { s.ended none (some (.bytes [(crcBytes 0 bytes).setWidth 8, (crcBytes 0 bytes >>> 8).setWidth 8])) with
        acc := crcBytes 0 bytes }

/-- R81 on natural numbers: compare the data bit with bit 15, shift, truncate to 16 bits, XOR with `0x8005`. -/
def crcBitNat (acc : Nat) (d : Bool) : Nat :=
  if d = decide (acc ≥ 0x8000) then (2 * acc) % 0x10000 else Nat.xor ((2 * acc) % 0x10000) 0x8005

/-- R82 on natural numbers: bit 0 of the byte first. -/
def crcByteNat (acc b : Nat) : Nat :=
  (List.range 8).foldl (fun a k => crcBitNat a (decide (b / 2 ^ k % 2 = 1))) acc

/-- R81, R82, R83: the engine computes the bit-serial function of the spec, written here on natural numbers. -/
def Obligations.EngineIsBitSerialCrc : Prop :=
  ∀ bytes : List Byte,
    (crcBytes 0 bytes).toNat = bytes.foldl (fun a b => crcByteNat a b.toNat) 0 ∧
    checksum bytes =
      [BitVec.ofNat 8 (bytes.foldl (fun a b => crcByteNat a b.toNat) 0 % 256),
       BitVec.ofNat 8 (bytes.foldl (fun a b => crcByteNat a b.toNat) 0 / 256)]

/-- R84: the empty sequence, leading zero bytes, all-zero sequences, and trailing zero bytes that do matter. -/
def Obligations.ChecksumZeroBytes : Prop :=
  checksum [] = [0x00, 0x00] ∧ (∀ bytes : List Byte, checksum (0x00 :: bytes) = checksum bytes) ∧
  (∀ n : Nat, checksum (List.replicate n 0x00) = [0x00, 0x00]) ∧
  checksum [0x01] = [0x03, 0x83] ∧ checksum [0x01, 0x00] = [0x09, 0x80]

/-- R85 (a): the accumulator is linear over XOR for sequences of one length. -/
def Obligations.ChecksumIsLinear : Prop :=
  ∀ s t : List Byte, s.length = t.length →
    crcBytes 0 (List.zipWith (· ^^^ ·) s t) = crcBytes 0 s ^^^ crcBytes 0 t

/-- One byte step of the catalogue's CRC-16/ARC: shift right, polynomial `0xA001` (bit-reversed `0x8005`). -/
def arcByte (crc : Word) (b : Byte) : Word :=
  (List.range 8).foldl (fun c _ => if c.getLsbD 0 then (c >>> 1) ^^^ 0xA001 else c >>> 1) (crc ^^^ b.setWidth 16)

/-- R85 (c): the accumulator is the 16-bit bit-reversal of CRC-16/ARC of the same bytes. What CRC-16/ARC is comes from
93_implementation_defined.md G7, outside the source. -/
def Obligations.AccumulatorReversesArc : Prop :=
  ∀ (bytes : List Byte) (k : Nat), k < 16 →
    (crcBytes 0 bytes).getLsbD k = (bytes.foldl arcByte 0).getLsbD (15 - k)

/-! ### The Packet Codec and the Status Taxonomy -/

/-- R90, R50, R53: ENCODE completes for every payload of at most 248 bytes and delivers the frame. That `cmd` then holds
autoWake 0 is the model's choice (log entry 28). -/
def Obligations.EncodeDelivers : Prop :=
  ∀ (s : State) (opcode param1 : Byte) (param2 : Byte × Byte) (payload : List Byte),
    s.busy = false → payload.length ≤ 248 →
    let head := [BitVec.ofNat 8 (7 + payload.length), opcode, param1, param2.1, param2.2] ++ payload
    exec (.encode opcode param1 param2 payload) s =
      .next { s.ended none (some (.bytes (head ++ checksum head))) with
        cmd := ⟨opcode, param1, param2, payload, false⟩, txbuf := head ++ checksum head, acc := crcBytes 0 head }

/-- R90, R91 (c): a longer payload is refused by ENCODE; nothing is built. What `cmd` then holds, the whole payload and
autoWake 0, is the model's choice (log entries 28 and 29). -/
def Obligations.EncodeRefusesLongPayload : Prop :=
  ∀ (s : State) (opcode param1 : Byte) (param2 : Byte × Byte) (payload : List Byte),
    s.busy = false → 248 < payload.length →
    exec (.encode opcode param1 param2 payload) s =
      .next { s.ended (some (.refused .payloadTooLong)) none with cmd := ⟨opcode, param1, param2, payload, false⟩ }

/-- R50, R52, R53: the layout of every encoded frame, field by field: the count, which is the frame's own length and
fits one byte, the operand bytes unchanged and in their order, and the checksum of everything before it. -/
def Obligations.EncodedFramesDescribeThemselves : Prop :=
  ∀ (c : Cmd) (frame : List Byte), encodeCommand c = .ok frame →
    frame.length = 7 + c.payload.length ∧ frame.length ≤ 255 ∧
    (∀ count : Byte, frame[0]? = some count → count.toNat = frame.length) ∧
    frame[1]? = some c.opcode ∧ frame[2]? = some c.param1 ∧
    frame[3]? = some c.param2.1 ∧ frame[4]? = some c.param2.2 ∧
    (frame.drop 5).take c.payload.length = c.payload ∧
    frame.drop (5 + c.payload.length) = checksum (frame.take (5 + c.payload.length))

/-- R92, R93: DECODE completes for every input, with the length check before the checksum. -/
def Obligations.DecodeDelivers : Prop :=
  ∀ (s : State) (input : List Byte), s.busy = false →
    exec (.decode input) s = .next (
      if input.length < 4 then s.ended (some .frameTooShort) none
      else if checksum (input.take (input.length - 2)) ≠ input.drop (input.length - 2) then
        { s.ended (some .checksumMismatch) none with acc := crcBytes 0 (input.take (input.length - 2)) }
      else
        { s.ended none (some (.decoded
            ⟨(input.take (input.length - 2)).drop 1, if input.length = 4 then input[1]? else none⟩)) with
          acc := crcBytes 0 (input.take (input.length - 2)) })

/-- R100 (a): the reply frame of R99 that carries 1 to 252 bytes decodes to them, one byte as a status; and R55, R96
(b): so does a frame with any other count byte, which the decoder does not look at. -/
def Obligations.ReplyFramesRoundTrip : Prop :=
  (∀ d : List Byte, 1 ≤ d.length → d.length ≤ 252 →
    decodeReply (responseFrame d) = .ok ⟨d, if d.length = 1 then d.head? else none⟩) ∧
  (∀ (count : Byte) (d : List Byte), d ≠ [] →
    decodeReply (count :: d ++ checksum (count :: d)) = .ok ⟨d, if d.length = 1 then d.head? else none⟩)

/-- R100 (b): flipping any single bit of a frame that decodes makes it fail with ChecksumMismatch. -/
def Obligations.SingleBitFlipIsDetected : Prop :=
  ∀ (frame : List Byte) (d : Decoded), decodeReply frame = .ok d →
    ∀ k b : Nat, k < frame.length → b < 8 →
      decodeReply (frame.modify k (· ^^^ (1#8 <<< b))) = .error .checksumMismatch

/-- R100 (c): an encoded command decodes to its own fields, without a status. -/
def Obligations.CommandFrameDecodesToFields : Prop :=
  ∀ (c : Cmd) (frame : List Byte), encodeCommand c = .ok frame →
    decodeReply frame = .ok ⟨[c.opcode, c.param1, c.param2.1, c.param2.2] ++ c.payload, none⟩

/-- The status table of R57. -/
def statusTable : List (Byte × Category) :=
  [(0x00, .success), (0x01, .verifyMiscompare), (0x03, .parseError), (0x05, .eccFault), (0x07, .selfTestError),
   (0x08, .healthTestError), (0x0F, .executionError), (0x11, .beforeFirstCommand), (0xEE, .watchdogImminent),
   (0xFF, .communicationError)]

/-- R97, R57, R58: CLASSIFY completes for every byte with the table's category, or UnknownStatus, and the three
flags. -/
def Obligations.ClassifyDelivers : Prop :=
  ∀ (s : State) (code : Byte), s.busy = false →
    exec (.classify code) s = .next (s.ended none (some (.classified {
      category := (statusTable.lookup code).getD (.unknownStatus code)
      nonErrorInExecute := decide (code = 0x00)
      nonErrorInWake := decide (code = 0x00 ∨ code = 0x11)
      hard := decide ((statusTable.lookup code).isNone ∨ (code ≠ 0x00 ∧ code ≤ 0x0F) ∨ code = 0xFF) })))

/-- R98: the outcome policy on every byte. It fails closed. -/
def Obligations.StatusPolicyFailsClosed : Prop :=
  ∀ (code : Byte) (inWake : Bool),
    statusOutcome code inWake =
      if code = 0x00 ∨ (code = 0x11 ∧ inWake = true) then none
      else if (statusTable.lookup code).isNone then some (.unknownStatus code) else some (.commandStatus code)

/-- R23, R80, R90, R92, R97: what the pure operations leave alone. CHECKSUM and DECODE may change the accumulator,
ENCODE the accumulator, `cmd` and `txbuf`, CLASSIFY neither. Nor do they read `session` (R23, D18): begun under any
other session value they do the same. -/
def Obligations.PureOperationsFrame : Prop :=
  ∀ (s t : State) (i : Instr), s.busy = false →
    (∃ bytes, i = .checksum bytes) ∨ (∃ o p q l, i = .encode o p q l) ∨ (∃ bytes, i = .decode bytes) ∨
      (∃ code, i = .classify code) →
    exec i s = .next t →
    t.session = s.session ∧ t.cfg = s.cfg ∧ t.rxlen = s.rxlen ∧ t.rxbuf = s.rxbuf ∧ t.held = s.held ∧
      t.answers = s.answers ∧ t.trace = s.trace ∧ t.draws = s.draws ∧
      ((∀ o p q l, i ≠ .encode o p q l) → t.cmd = s.cmd ∧ t.txbuf = s.txbuf) ∧
      ((∃ code, i = .classify code) → t.acc = s.acc) ∧
      (∀ x : Session, exec i { s with session := x } = .next { t with session := x })

/-! ### The Session State Machine -/

/-- R111 to R115: WAKE completes from every session state on every 4-byte reply. It ends Awake exactly for the replies
of R114, else Faulted with WakeFailed; the wake write's answer makes no difference to that. -/
def Obligations.WakeFollowsReply : Prop :=
  ∀ (s : State) (a : Answer) (r : List Byte) (rest : List Answer), s.busy = false →
    s.answers = a :: .bytes r :: rest → r.length = 4 →
    ∃ t, exec .wake s = .next t ∧
      (GoodWakeReply r → t = { s.ended none none with
        session := .awake, rxbuf := r, acc := crcBytes 0 (r.take 2), answers := rest,
        trace := s.trace ++ wakeEvents s.cfg a.failure (.got r) }) ∧
      (¬ GoodWakeReply r → t = { s.ended (some .wakeFailed) none with
        session := .faulted, rxbuf := r, acc := crcBytes 0 (r.take 2), answers := rest,
        trace := s.trace ++ wakeEvents s.cfg a.failure (.got r) })

/-- R115, R171: a transport error of the wake read is passed through, and the session is Faulted. -/
def Obligations.WakeReadErrorPassesThrough : Prop :=
  ∀ (s : State) (a : Answer) (e : Nat) (rest : List Answer), s.busy = false →
    s.answers = a :: .error e :: rest →
    exec .wake s = .next { s.ended (some (.transport e)) none with
      session := .faulted, answers := rest, trace := s.trace ++ wakeEvents s.cfg a.failure (.failed e) }

/-- R116, R117: IDLE and SLEEP complete from every session state, whatever the write answers; they differ in the target
alone. -/
def Obligations.IdleAndSleepDeliver : Prop :=
  ∀ (s : State) (a : Answer) (rest : List Answer), s.busy = false → s.answers = a :: rest →
    let after (t : Target) : State :=
      { s.ended (a.failure.map Error.transport) none with
        session := .sleeping, answers := rest,
        trace := s.trace ++ [.write ⟨s.cfg.busId, t.address, t.register⟩ [] a.failure] }
    exec .idle s = .next (after s.cfg.idleTarget) ∧ exec .sleep s = .next (after s.cfg.sleepTarget)

/-! ### The Command Executor -/

/-- R132: the two refusals of EXECUTE, in their order; no event, no idle, `session` unchanged. What `cmd` holds after a
refusal is the model's choice (log entry 29). -/
def Obligations.ExecuteRefusals : Prop :=
  ∀ (s : State) (opcode param1 : Byte) (param2 : Byte × Byte) (payload : List Byte) (autoWake : Bool),
    s.busy = false →
    (248 < payload.length →
      exec (.execute opcode param1 param2 payload autoWake) s =
        .next { s.ended (some (.refused .payloadTooLong)) none with
          cmd := ⟨opcode, param1, param2, payload, autoWake⟩ }) ∧
    (payload.length ≤ 248 → autoWake = false → s.session ≠ .awake →
      exec (.execute opcode param1 param2 payload autoWake) s =
        .next { s.ended (some (.refused .notAwake)) none with
          cmd := ⟨opcode, param1, param2, payload, autoWake⟩ })

/-- R140, R143 row 1: EXECUTE with autoWake completes when the wake succeeds and the reply decodes to data or to
Success. -/
def Obligations.ExecuteAutoWakeDelivers : Prop :=
  ∀ (s : State) (c : Cmd) (a k z : Answer) (wk : List Byte) (len : Byte) (body data : List Byte)
    (status : Option Byte) (rest : List Answer),
    s.busy = false → s.cfg.rxMode = .remainder → c.autoWake = true → c.payload.length ≤ 248 →
    s.answers = a :: .bytes wk :: k :: .bytes [len] :: .bytes body :: z :: rest →
    GoodWakeReply wk → k.failure = none → body.length + 1 = len.toNat → 1 ≤ body.length →
    decodeReply (len :: body) = .ok ⟨data, status⟩ → status = none ∨ status = some 0x00 →
    exec (.execute c.opcode c.param1 c.param2 c.payload c.autoWake) s =
      .next { s.ended none (some (.bytes data)) with
        session := .sleeping, cmd := c, txbuf := commandHead c ++ checksum (commandHead c), rxlen := len,
        rxbuf := len :: body, acc := crcBytes 0 (len :: body.take (body.length - 2)), answers := rest,
        trace := s.trace ++ wakeEvents s.cfg a.failure (.got wk) ++
          sendEvents s.cfg (commandHead c ++ checksum (commandHead c)) (.got [len]) ++
          [.read (locate s.cfg s.cfg.cmdTarget) body.length (.got body), idleEvent s.cfg z.failure] }

/-- R140, R143 row 7: EXECUTE without autoWake completes from Awake, issues no idle write and stays Awake. -/
def Obligations.ExecuteFromAwakeDelivers : Prop :=
  ∀ (s : State) (c : Cmd) (k : Answer) (len : Byte) (body data : List Byte) (status : Option Byte)
    (rest : List Answer),
    s.busy = false → s.cfg.rxMode = .remainder → s.session = .awake → c.autoWake = false →
    c.payload.length ≤ 248 → s.answers = k :: .bytes [len] :: .bytes body :: rest →
    k.failure = none → body.length + 1 = len.toNat → 1 ≤ body.length →
    decodeReply (len :: body) = .ok ⟨data, status⟩ → status = none ∨ status = some 0x00 →
    exec (.execute c.opcode c.param1 c.param2 c.payload c.autoWake) s =
      .next { s.ended none (some (.bytes data)) with
        cmd := c, txbuf := commandHead c ++ checksum (commandHead c), rxlen := len, rxbuf := len :: body,
        acc := crcBytes 0 (len :: body.take (body.length - 2)), answers := rest,
        trace := s.trace ++ sendEvents s.cfg (commandHead c ++ checksum (commandHead c)) (.got [len]) ++
          [.read (locate s.cfg s.cfg.cmdTarget) body.length (.got body)] }

/-- R133, R143 row 2: a wake that fails inside EXECUTE skips the exchange; the idle write still follows, and Faulted
does not outlive the call. -/
def Obligations.ExecuteWakeFailureStillIdles : Prop :=
  ∀ (s : State) (c : Cmd) (a r z : Answer) (rest : List Answer),
    s.busy = false → c.autoWake = true → c.payload.length ≤ 248 → s.answers = a :: r :: z :: rest →
    (∀ e, r = .error e →
      exec (.execute c.opcode c.param1 c.param2 c.payload c.autoWake) s =
        .next { s.ended (some (.transport e)) none with
          session := .sleeping, cmd := c, answers := rest,
          trace := s.trace ++ wakeEvents s.cfg a.failure (.failed e) ++ [idleEvent s.cfg z.failure] }) ∧
    (∀ wk, r = .bytes wk → wk.length = 4 → ¬ GoodWakeReply wk →
      exec (.execute c.opcode c.param1 c.param2 c.payload c.autoWake) s =
        .next { s.ended (some .wakeFailed) none with
          session := .sleeping, cmd := c, answers := rest, rxbuf := wk, acc := crcBytes 0 (wk.take 2),
          trace := s.trace ++ wakeEvents s.cfg a.failure (.got wk) ++ [idleEvent s.cfg z.failure] })

/-- R134, R139, R143 row 3 (the source's test property 9): after a failed command write there is no wait and no read,
and with autoWake exactly one idle write, whose own error is discarded. -/
def Obligations.ExecuteWriteFailureIdlesOnce : Prop :=
  ∀ (s : State) (c : Cmd) (a z : Answer) (wk : List Byte) (e : Nat) (rest : List Answer),
    s.busy = false → c.payload.length ≤ 248 →
    let frame := commandHead c ++ checksum (commandHead c)
    let failed : Event := .write (locate s.cfg s.cfg.cmdTarget) frame (some e)
    (c.autoWake = true → GoodWakeReply wk → s.answers = a :: .bytes wk :: .error e :: z :: rest →
      exec (.execute c.opcode c.param1 c.param2 c.payload c.autoWake) s =
        .next { s.ended (some (.transport e)) none with
          session := .sleeping, cmd := c, txbuf := frame, rxbuf := wk, acc := crcBytes 0 (commandHead c),
          answers := rest,
          trace := s.trace ++ wakeEvents s.cfg a.failure (.got wk) ++ [failed, idleEvent s.cfg z.failure] }) ∧
    (c.autoWake = false → s.session = .awake → s.answers = .error e :: rest →
      exec (.execute c.opcode c.param1 c.param2 c.payload c.autoWake) s =
        .next { s.ended (some (.transport e)) none with
          cmd := c, txbuf := frame, acc := crcBytes 0 (commandHead c), answers := rest,
          trace := s.trace ++ [failed] })

/-- R136, R137: a failed length read or body read ends the exchange with its error (here from Awake, without
autoWake). -/
def Obligations.ExecuteReadFailures : Prop :=
  ∀ (s : State) (c : Cmd) (k : Answer) (e : Nat) (rest : List Answer),
    s.busy = false → s.cfg.rxMode = .remainder → s.session = .awake → c.autoWake = false →
    c.payload.length ≤ 248 → k.failure = none →
    let frame := commandHead c ++ checksum (commandHead c)
    (s.answers = k :: .error e :: rest →
      exec (.execute c.opcode c.param1 c.param2 c.payload c.autoWake) s =
        .next { s.ended (some (.transport e)) none with
          cmd := c, txbuf := frame, acc := crcBytes 0 (commandHead c), answers := rest,
          trace := s.trace ++ sendEvents s.cfg frame (.failed e) }) ∧
    (∀ len : Byte, 2 ≤ len.toNat → s.answers = k :: .bytes [len] :: .error e :: rest →
      exec (.execute c.opcode c.param1 c.param2 c.payload c.autoWake) s =
        .next { s.ended (some (.transport e)) none with
          cmd := c, txbuf := frame, rxlen := len, acc := crcBytes 0 (commandHead c), answers := rest,
          trace := s.trace ++ sendEvents s.cfg frame (.got [len]) ++
            [.read (locate s.cfg s.cfg.cmdTarget) (len.toNat - 1) (.failed e)] })

/-- R137, R138, R140, from Awake without autoWake: a length byte of 0 or 1 makes no second read, and the one-byte frame
is too short. -/
def Obligations.ExecuteLengthBelowTwo : Prop :=
  ∀ (s : State) (c : Cmd) (k : Answer) (len : Byte) (rest : List Answer),
    s.busy = false → s.cfg.rxMode = .remainder → s.session = .awake → c.autoWake = false →
    c.payload.length ≤ 248 → k.failure = none → len.toNat < 2 → s.answers = k :: .bytes [len] :: rest →
    exec (.execute c.opcode c.param1 c.param2 c.payload c.autoWake) s =
      .next { s.ended (some .frameTooShort) none with
        cmd := c, txbuf := commandHead c ++ checksum (commandHead c), rxlen := len, rxbuf := [len],
        acc := crcBytes 0 (commandHead c), answers := rest,
        trace := s.trace ++ sendEvents s.cfg (commandHead c ++ checksum (commandHead c)) (.got [len]) }

/-- R138, R175, R176: a 4-byte reply with a good checksum and a status other than Success ends EXECUTE with
CommandStatusError for a byte of the table, UnknownStatus for any other; `session` is unchanged. -/
def Obligations.ExecuteStatusErrors : Prop :=
  ∀ (s : State) (c : Cmd) (k : Answer) (code : Byte) (rest : List Answer),
    s.busy = false → s.cfg.rxMode = .remainder → s.session = .awake → c.autoWake = false →
    c.payload.length ≤ 248 → k.failure = none → code ≠ 0x00 →
    s.answers = k :: .bytes [0x04] :: .bytes (code :: checksum [0x04, code]) :: rest →
    ∃ t, exec (.execute c.opcode c.param1 c.param2 c.payload c.autoWake) s = .next t ∧
      t.delivered = s.delivered ++
        [⟨some (if (statusTable.lookup code).isSome then .commandStatus code else .unknownStatus code), none⟩] ∧
      t.session = .awake ∧ t.answers = rest ∧ t.busy = false

/-- D7, U18: under the reading `restart` the second read asks for as many bytes as the first said, and is decoded
alone. -/
def Obligations.ExecuteRestartReading : Prop :=
  ∀ (s : State) (c : Cmd) (k : Answer) (len : Byte) (reply data : List Byte) (status : Option Byte)
    (rest : List Answer),
    s.busy = false → s.cfg.rxMode = .restart → s.session = .awake → c.autoWake = false →
    c.payload.length ≤ 248 → s.answers = k :: .bytes [len] :: .bytes reply :: rest →
    k.failure = none → reply.length = len.toNat →
    decodeReply reply = .ok ⟨data, status⟩ → status = none ∨ status = some 0x00 →
    exec (.execute c.opcode c.param1 c.param2 c.payload c.autoWake) s =
      .next { s.ended none (some (.bytes data)) with
        cmd := c, txbuf := commandHead c ++ checksum (commandHead c), rxlen := len, rxbuf := reply,
        acc := crcBytes 0 (reply.take (reply.length - 2)), answers := rest,
        trace := s.trace ++ sendEvents s.cfg (commandHead c ++ checksum (commandHead c)) (.got [len]) ++
          [.read (locate s.cfg s.cfg.cmdTarget) len.toNat (.got reply)] }

/-- R140: from every state in which it is accepted, and for every answer of the environment, EXECUTE run phase by phase
does what the pseudocode says: the same events in the same order, one delivery, the same session; or both wait for a
transport call after the same events, with the same session and the same answers consumed. For the configuration
`restart` the pseudocode is R140 with the other reading of D7 (log entry 10, DESIGN CHOICE) in its second read. -/
def Obligations.ExecuteRefinesPseudocode : Prop :=
  ∀ (s : State) (c : Cmd), s.busy = false →
    ∃ t, exec (.execute c.opcode c.param1 c.param2 c.payload c.autoWake) s = .next t ∧
      Agrees s t (refExecute s.cfg c s.world) (fun data => some (.bytes data))

/-- R111, R116, R117: the same for WAKE, IDLE and SLEEP. -/
def Obligations.SessionOperationsRefinePseudocode : Prop :=
  ∀ s : State, s.busy = false →
    (∃ t, exec .wake s = .next t ∧ Agrees s t (refWake s.cfg s.world) (fun _ => none)) ∧
    (∃ t, exec .idle s = .next t ∧ Agrees s t (refPower s.cfg s.cfg.idleTarget s.world) (fun _ => none)) ∧
    (∃ t, exec .sleep s = .next t ∧ Agrees s t (refPower s.cfg s.cfg.sleepTarget s.world) (fun _ => none))

/-- R150, R153: the same for SELFTEST and INFO, with the same remark on `restart` (D7, log entry 10). -/
def Obligations.HighLevelCommandsRefinePseudocode : Prop :=
  ∀ s : State, s.busy = false →
    (∃ t, exec .selftest s = .next t ∧
      Agrees s t (refSelftest s.cfg s.world) (fun report => some (.selfTest report))) ∧
    (∃ t, exec .info s = .next t ∧ Agrees s t (refInfo s.cfg s.world) (fun report => some (.info report)))

/-- The shape of the trace EXECUTE has made when it delivers. With autoWake, and for a refusal, it is a row of R143.
From Awake without autoWake it is row 7 or, by R134, R136, R137 and R140, the part of row 7 up to the step that failed,
which R143 does not list. -/
def Obligations.ExecuteTraceRows : Prop :=
  ∀ (s t : State) (c : Cmd), s.busy = false → s.cfg.rxMode = .remainder →
    exec (.execute c.opcode c.param1 c.param2 c.payload c.autoWake) s = .next t → t.busy = false →
    let cmd := locate s.cfg s.cfg.cmdTarget
    let wake : List Shape := [.write (locate s.cfg s.cfg.wakeTarget) 0, .delay s.cfg.tWakeSettle, .read cmd 4]
    let write : List Shape := [.write cmd (7 + c.payload.length)]
    let length : List Shape := [.delay s.cfg.tExec, .read cmd 1]
    let idle : List Shape := [.write (locate s.cfg s.cfg.idleTarget) 0]
    ∃ events, t.trace = s.trace ++ events ∧
      (248 < c.payload.length → events = []) ∧
      (c.payload.length ≤ 248 → c.autoWake = true →
        events.map Event.shape = wake ++ idle ∨ events.map Event.shape = wake ++ write ++ idle ∨
        events.map Event.shape = wake ++ write ++ length ++ idle ∨
        ∃ L, 2 ≤ L ∧ L ≤ 255 ∧ events.map Event.shape = wake ++ write ++ length ++ [.read cmd (L - 1)] ++ idle) ∧
      (c.payload.length ≤ 248 → c.autoWake = false → s.session = .awake →
        events.map Event.shape = write ∨ events.map Event.shape = write ++ length ∨
        ∃ L, 2 ≤ L ∧ L ≤ 255 ∧ events.map Event.shape = write ++ length ++ [.read cmd (L - 1)]) ∧
      (c.autoWake = false → s.session ≠ .awake → events = [])

/-- R20, R23, R110, R130: what the transport operations leave alone when they answer a next state. -/
def Obligations.TransportOperationsFrame : Prop :=
  ∀ (s t : State) (i : Instr), s.busy = false → exec i s = .next t →
    i = .wake ∨ i = .idle ∨ i = .sleep ∨ i = .selftest ∨ i = .info ∨
      (∃ o p q l w, i = .execute o p q l w) ∨ (∃ o l h, i = .selftestFrame o l h) ∨
      (∃ o l h, i = .infoFrame o l h) →
    t.cfg = s.cfg ∧ t.held = s.held ∧ s.trace <+: t.trace ∧ t.answers <:+ s.answers ∧
      (i = .wake ∨ i = .idle ∨ i = .sleep → t.cmd = s.cmd ∧ t.txbuf = s.txbuf ∧ t.rxlen = s.rxlen) ∧
      (i = .idle ∨ i = .sleep → t.acc = s.acc ∧ t.rxbuf = s.rxbuf ∧ t.draws = s.draws)

/-! ### The high-level commands -/

/-- R151: the five verdicts and the raw mask, for every byte. That the raw mask is returned is the spec's own decision
(D17). -/
def Obligations.SelftestMaskBits : Prop :=
  ∀ m : Byte,
    ((selftestInterpret m).rng = .fail ↔ m.getLsbD 5 = true) ∧
    ((selftestInterpret m).aes = .fail ↔ m.getLsbD 4 = true) ∧
    ((selftestInterpret m).ecdh = .fail ↔ m.getLsbD 3 = true) ∧
    ((selftestInterpret m).ecdsa = .fail ↔ m.getLsbD 1 = true) ∧
    ((selftestInterpret m).drbg = .fail ↔ m.getLsbD 0 = true) ∧ (selftestInterpret m).mask = m

/-- R150, R67: SELFTEST sends the frame of R67, completes when the reply decodes to data or Success, interprets the
first byte and ignores the others, after the cleanup. -/
def Obligations.SelftestDelivers : Prop :=
  ∀ (s : State) (a k z : Answer) (wk : List Byte) (len mask : Byte) (body others : List Byte)
    (status : Option Byte) (rest : List Answer),
    s.busy = false → s.cfg.rxMode = .remainder →
    s.answers = a :: .bytes wk :: k :: .bytes [len] :: .bytes body :: z :: rest →
    GoodWakeReply wk → k.failure = none → body.length + 1 = len.toNat → 1 ≤ body.length →
    decodeReply (len :: body) = .ok ⟨mask :: others, status⟩ → status = none ∨ status = some 0x00 →
    let head : List Byte := [0x07, s.cfg.opcSelftest, 0x3B, 0x00, 0x00]
    exec .selftest s =
      .next { s.ended none (some (.selfTest (selftestInterpret mask))) with
        session := .sleeping, cmd := ⟨s.cfg.opcSelftest, 0x3B, (0x00, 0x00), [], true⟩,
        txbuf := head ++ checksum head, rxlen := len, rxbuf := len :: body,
        acc := crcBytes 0 (len :: body.take (body.length - 2)), answers := rest,
        trace := s.trace ++ wakeEvents s.cfg a.failure (.got wk) ++
          sendEvents s.cfg (head ++ checksum head) (.got [len]) ++
          [.read (locate s.cfg s.cfg.cmdTarget) body.length (.got body), idleEvent s.cfg z.failure] }

/-- R152: a self-test mask that comes back as the one data byte of a 4-byte reply and is not zero ends SELFTEST with a
status error that carries the mask; the interpretation is not reached. -/
def Obligations.SelftestMaskReadAsStatus : Prop :=
  ∀ (s : State) (a k z : Answer) (wk : List Byte) (mask : Byte) (rest : List Answer),
    s.busy = false → s.cfg.rxMode = .remainder → mask ≠ 0x00 → GoodWakeReply wk → k.failure = none →
    s.answers = a :: .bytes wk :: k :: .bytes [0x04] :: .bytes (mask :: checksum [0x04, mask]) :: z :: rest →
    ∃ t, exec .selftest s = .next t ∧
      t.delivered = s.delivered ++
        [⟨some (if (statusTable.lookup mask).isSome then .commandStatus mask else .unknownStatus mask), none⟩] ∧
      t.session = .sleeping ∧ t.busy = false

/-- R153, R154: INFO sends the frame of R67 and completes when the reply carries at least 13 bytes. -/
def Obligations.InfoDelivers : Prop :=
  ∀ (s : State) (a k z : Answer) (wk : List Byte) (len : Byte) (body r : List Byte) (rest : List Answer),
    s.busy = false → s.cfg.rxMode = .remainder →
    s.answers = a :: .bytes wk :: k :: .bytes [len] :: .bytes body :: z :: rest →
    GoodWakeReply wk → k.failure = none → body.length + 1 = len.toNat →
    decodeReply (len :: body) = .ok ⟨r, none⟩ → 13 ≤ r.length →
    let head : List Byte := [0x07, s.cfg.opcRead, 0x80, 0x00, 0x00]
    exec .info s =
      .next { s.ended none (some (.info ⟨r.take 4 ++ (r.take 13).drop 8, (r.take 8).drop 4⟩)) with
        session := .sleeping, cmd := ⟨s.cfg.opcRead, 0x80, (0x00, 0x00), [], true⟩,
        txbuf := head ++ checksum head, rxlen := len, rxbuf := len :: body,
        acc := crcBytes 0 (len :: body.take (body.length - 2)), answers := rest,
        trace := s.trace ++ wakeEvents s.cfg a.failure (.got wk) ++
          sendEvents s.cfg (head ++ checksum head) (.got [len]) ++
          [.read (locate s.cfg s.cfg.cmdTarget) body.length (.got body), idleEvent s.cfg z.failure] }

/-- R154, R155 (b, d, e), R177: fewer than 13 bytes of data, or a bare Success, end INFO with ShortResponse, after the
cleanup. -/
def Obligations.InfoShortResponse : Prop :=
  ∀ (s : State) (a k z : Answer) (wk : List Byte) (len : Byte) (body r : List Byte) (status : Option Byte)
    (rest : List Answer),
    s.busy = false → s.cfg.rxMode = .remainder →
    s.answers = a :: .bytes wk :: k :: .bytes [len] :: .bytes body :: z :: rest →
    GoodWakeReply wk → k.failure = none → body.length + 1 = len.toNat →
    decodeReply (len :: body) = .ok ⟨r, status⟩ → status = none ∨ status = some 0x00 → r.length < 13 →
    ∃ t, exec .info s = .next t ∧ t.delivered = s.delivered ++ [⟨some .shortResponse, none⟩] ∧
      t.session = .sleeping ∧ t.busy = false ∧ t.answers = rest

/-! ### The wire frames -/

/-- R134 to R138 for the two wire frames (log entry 6: that a frame can be handed over for sending is the model's
choice): from Awake the very bytes go out in one write, and the reply is delivered uninterpreted. -/
def Obligations.WireFramesExchange : Prop :=
  ∀ (s : State) (opcode lo hi : Byte) (k : Answer) (len : Byte) (body data : List Byte) (status : Option Byte)
    (rest : List Answer),
    s.busy = false → s.cfg.rxMode = .remainder → s.session = .awake →
    s.answers = k :: .bytes [len] :: .bytes body :: rest →
    k.failure = none → body.length + 1 = len.toNat → 1 ≤ body.length →
    decodeReply (len :: body) = .ok ⟨data, status⟩ → status = none ∨ status = some 0x00 →
    let after (c : Cmd) (frame : List Byte) : State :=
      { s.ended none (some (.bytes data)) with
        cmd := c, txbuf := frame, rxlen := len, rxbuf := len :: body,
        acc := crcBytes 0 (len :: body.take (body.length - 2)), answers := rest,
        trace := s.trace ++ sendEvents s.cfg frame (.got [len]) ++
          [.read (locate s.cfg s.cfg.cmdTarget) body.length (.got body)] }
    exec (.selftestFrame opcode lo hi) s =
      .next (after ⟨opcode, 0x3B, (0x00, 0x00), [], false⟩ [0x07, opcode, 0x3B, 0x00, 0x00, lo, hi]) ∧
    exec (.infoFrame opcode lo hi) s =
      .next (after ⟨opcode, 0x80, (0x00, 0x00), [], false⟩ [0x07, opcode, 0x80, 0x00, 0x00, lo, hi])

/-- R119 for the two wire frames (log entry 6): outside Awake they are refused and nothing goes out. What `cmd` holds
after a refusal is the model's choice (log entry 29). -/
def Obligations.WireFramesNeedAwake : Prop :=
  ∀ (s : State) (opcode lo hi : Byte), s.busy = false → s.session ≠ .awake →
    exec (.selftestFrame opcode lo hi) s =
      .next { s.ended (some (.refused .notAwake)) none with cmd := ⟨opcode, 0x3B, (0x00, 0x00), [], false⟩ } ∧
    exec (.infoFrame opcode lo hi) s =
      .next { s.ended (some (.refused .notAwake)) none with cmd := ⟨opcode, 0x80, (0x00, 0x00), [], false⟩ }

/-! ### The whole machine -/

/-- The block runs what the decoder gives: when it is not busy and takes a held request that decodes to an instruction,
well-formed or not, the step is that instruction's meaning in the state without the request (R17, R41). -/
def Obligations.StepRunsDecodedInstruction : Prop :=
  ∀ (s s' : State) (w : PortWord) (i : Instr), s.busy = false → takeHeld s = some (w, s') → decode w = .ok i →
    step s = exec i s'

/-- R41: whatever the choice among the held requests, the one taken was held, the others stay held in their order,
and nothing else of the state but the count of free values changes; one request alone is taken for certain. -/
def Obligations.AnyHeldRequestIsTaken : Prop :=
  (∀ s : State, s.held = [] → takeHeld s = none) ∧
  (∀ s : State, s.held ≠ [] → ∃ w before later draws, s.held = before ++ w :: later ∧
    takeHeld s = some (w, { s with held := before ++ later, draws := draws })) ∧
  (∀ (s : State) (w : PortWord), s.held = [w] → takeHeld s = some (w, { s with held := [] }))

/-- R182: nothing stops the block. Every step and every operation answers a next state. -/
def Obligations.NothingStopsTheBlock : Prop :=
  (∀ s : State, ∃ t, step s = .next t) ∧ (∀ (i : Instr) (s : State), ∃ t, exec i s = .next t)

/-- R41, R206: a request that meets a busy block, presented from outside or carried out on its state, is held as it is
and changes nothing else; one that is presented to a block that is not busy is held too until it is accepted. -/
def Obligations.BusyBlockHoldsRequests : Prop :=
  (∀ (s : State) (i : Instr), s.busy = true → exec i s = .next { s with held := s.held ++ [encode i] }) ∧
  (∀ (s : State) (w : PortWord), stimulate (.present w) s = .next { s with held := s.held ++ [w] })

/-- R205, U12: with no answer of the environment a busy block waits, unchanged; with nothing held an idle block
waits, unchanged. -/
def Obligations.WaitingChangesNothing : Prop :=
  (∀ s : State, s.busy = true → s.answers = [] → s.phase ∈ transportPhases →
    (s.phase = .readBody → bodyReadLength s.cfg.rxMode s.rxlen ≠ none) → step s = .next s) ∧
  (∀ s : State, s.busy = false → s.held = [] → step s = .next s)

/-- R42: the operation in flight is not affected by what happens on the request port. -/
def Obligations.InFlightIgnoresRequestPort : Prop :=
  ∀ (s t : State) (held : List PortWord), s.busy = true → step s = .next t →
    step { s with held := held } = .next { t with held := held }

/-- R22, R200: the stated reset values, for every configuration, and at the machine's own reset. -/
def Obligations.ResetValues : Prop :=
  (∀ cfg : Cfg, (State.constructed cfg).session = .sleeping ∧ (State.constructed cfg).busy = false ∧
    (State.constructed cfg).phase = .idle ∧ (State.constructed cfg).err = none ∧
    (State.constructed cfg).cfg = cfg ∧ (State.constructed cfg).trace = []) ∧
  ∃ cfg : Cfg, State.reset = State.constructed cfg

/-- R200, R201: construction is admitted only when the block is not busy; it makes no event and delivers nothing. -/
def Obligations.ConstructionOnlyWhenNotBusy : Prop :=
  ∀ (s : State) (cfg : Cfg),
    (s.busy = true → stimulate (.construct cfg) s = .refused .resetWhileBusy) ∧
    (s.busy = false → ∃ t, stimulate (.construct cfg) s = .next t ∧ t.session = .sleeping ∧ t.busy = false ∧
      t.phase = .idle ∧ t.err = none ∧ t.cfg = cfg ∧ t.trace = s.trace ∧ t.delivered = s.delivered ∧
      t.held = s.held)

/-- R19: no step writes the configuration. -/
def Obligations.StepKeepsConfiguration : Prop :=
  ∀ s t : State, step s = .next t → t.cfg = s.cfg

/-- R39, R206: a step only appends to the trace and to the deliveries, and consumes the environment's answers from
the front. -/
def Obligations.RecordsOnlyGrow : Prop :=
  ∀ s t : State, step s = .next t → s.trace <+: t.trace ∧ s.delivered <+: t.delivered ∧ t.answers <:+ s.answers

/-- R12, R206: an accepted request is delivered exactly once: while it is in flight nothing is delivered, and the step
that ends it delivers once. R64: the code of a delivery on the result port, by the error it carries. -/
def Obligations.OneDeliveryPerRequest : Prop :=
  (∀ (s t : State) (i : Instr), s.busy = false → exec i s = .next t →
    (t.busy = true ∧ t.delivered = s.delivered) ∨
      (t.busy = false ∧ ∃ d, t.delivered = s.delivered ++ [d] ∧ (d.err = none ∨ d.result = none))) ∧
  (∀ s t : State, s.busy = true → step s = .next t →
    (t.busy = true ∧ t.delivered = s.delivered) ∨
      (t.busy = false ∧ ∃ d, t.delivered = s.delivered ++ [d] ∧ (d.err = none ∨ d.result = none))) ∧
  (∀ d : Delivery,
    (d.code = 0 ↔ d.err = none) ∧ (d.code = 1 ↔ ∃ e, d.err = some (.transport e)) ∧
    (d.code = 2 ↔ d.err = some .frameTooShort) ∧ (d.code = 3 ↔ d.err = some .checksumMismatch) ∧
    (d.code = 4 ↔ d.err = some .wakeFailed) ∧ (d.code = 5 ↔ ∃ code, d.err = some (.commandStatus code)) ∧
    (d.code = 6 ↔ ∃ code, d.err = some (.unknownStatus code)) ∧ (d.code = 7 ↔ d.err = some .shortResponse) ∧
    (d.code = 8 ↔ ∃ reason, d.err = some (.refused reason)))

/-- R205: an operation whose transport calls all return ends, after at most six of them and eight events; one whose
call has not returned is in flight with `busy = 1`, and stays so, with every held request, until it returns. When
answers come later, whatever is held by then, the step goes on with it as if they had been at hand when it was accepted
(log entry 22): what the other statements say of `exec` holds of the resumed operation. -/
def Obligations.AnsweredOperationsEnd : Prop :=
  ∀ (i : Instr) (s : State), s.busy = false →
    ∃ t events, exec i s = .next t ∧ t.trace = s.trace ++ events ∧ events.length ≤ 8 ∧
      s.answers.length ≤ t.answers.length + 6 ∧
      (6 ≤ s.answers.length → t.busy = false ∧ t.phase = .idle) ∧
      (t.busy = true → t.answers = [] ∧ step t = .next t ∧
        (∀ w : PortWord, step (hold w t) = .next (hold w t)) ∧
        ∀ (late : List Answer) (held : List PortWord),
          ∃ u, exec i { s with answers := s.answers ++ late } = .next u ∧
            step { t with answers := late, held := held } = .next { u with held := held })

/-- R17: in a consistent state one phase leads along an arrow of the table, or nothing changes at all, because nothing is
in flight or because the transport call of the phase has not returned. -/
def Obligations.PhasesFollowArrows : Prop :=
  ∀ s : State, Consistent s →
    (tick s = s ∧ (s.phase = .idle ∨ (s.answers = [] ∧ s.phase ∈ transportPhases))) ∨
      (tick s).phase ∈ phaseArrows s.phase

/-- The state after reset is consistent, whatever the configuration. -/
def Obligations.ResetIsConsistent : Prop :=
  ∀ cfg : Cfg, Consistent (State.constructed cfg)

/-- R10 to R18, R119, R132, R134, R137, R142: every step keeps the fit of sequencer, latched request and buffers. -/
def Obligations.StepKeepsConsistency : Prop :=
  ∀ s t : State, Consistent s → step s = .next t → Consistent t

/-- Whatever the caller and the environment do, every state a run reaches is consistent; and one in which an operation
is in flight is that operation's own, begun on a block that was not busy, with the answers and the held requests that
came since. -/
def Obligations.ReachableStatesAreConsistent : Prop :=
  ∀ s : State, Reachable s → Consistent s ∧
    (s.busy = true → ∃ (s0 t : State) (i : Instr), s0.busy = false ∧ exec i s0 = .next t ∧ t.busy = true ∧
      s = { t with answers := s.answers, held := s.held })

/-- R110, R114 to R117, R119, R142: `session` after an operation has delivered, for every
operation: only WAKE, IDLE, SLEEP and the autoWake composites change it. R11: it is what the caller then reads on the
status port, as 0, 1 or 2, and while the block is busy the port gives nothing. -/
def Obligations.SessionTransitions : Prop :=
  (∀ (s t : State) (i : Instr), s.busy = false → exec i s = .next t →
    (t.busy = true → t.statusPort = none) ∧
    (t.busy = false → t.statusPort = some t.session ∧
      (i = .wake → (t.err = none ∧ t.session = .awake) ∨
        ((t.err = some .wakeFailed ∨ ∃ e, t.err = some (.transport e)) ∧ t.session = .faulted)) ∧
      (i = .idle ∨ i = .sleep → t.session = .sleeping) ∧
      (i ≠ .wake → i ≠ .idle → i ≠ .sleep → t.session =
        if autoWakes (some i) ∧ isRefusal t.err = false then .sleeping else s.session))) ∧
  (∀ s : State, s.statusPort = if s.busy then none else some s.session) ∧
  (∀ x : Session, (x.number = 0 ↔ x = .sleeping) ∧ (x.number = 1 ↔ x = .awake) ∧ (x.number = 2 ↔ x = .faulted))
end

