-- ==== Sys2Proof/Laws/Checksum.lean ====
section
/-! SUPPORT. The Checksum Engine's bit and byte steps: linear over XOR, and injective. -/

namespace Sys2Proof.Machine

/-- One bit step is linear over XOR (R81). -/
theorem crcBit_xor (a b : Word) (c d : Bool) : crcBit (a ^^^ b) (c != d) = crcBit a c ^^^ crcBit b d := by
  unfold crcBit crcPoly
  simp only [BitVec.getLsbD_xor]
  cases a.getLsbD 15 <;> cases b.getLsbD 15 <;> cases c <;> cases d <;> ext i <;> simp <;> grind

/-- One byte step is linear over XOR (R82). -/
theorem crcByte_xor (a b : Word) (c d : Byte) : crcByte (a ^^^ b) (c ^^^ d) = crcByte a c ^^^ crcByte b d := by
  unfold crcByte dataBits
  simp only [List.foldl, BitVec.getLsbD_xor]
  simp only [show ∀ x y : Bool, (x ^^ y) = (x != y) from fun _ _ => rfl, crcBit_xor]

/-- Only the zero accumulator is taken to zero by a zero bit. -/
theorem crcBit_eq_zero {x : Word} (hx : crcBit x false = 0) : x = 0 := by
  unfold crcBit crcPoly at hx
  cases h15 : x.getLsbD 15 <;> simp only [h15] at hx
  · ext i hi
    by_cases h' : i = 15
    · subst h'; simpa using h15
    · have := congrArg (fun v => v.getLsbD (i + 1)) hx
      have h2 : i + 1 < 16 := by omega
      simp [h2] at this
      simpa using this
  · have := congrArg (fun v => v.getLsbD 0) hx
    simp at this

/-- Different accumulators stay different through a bit step. -/
theorem crcBit_injective {a b : Word} {d : Bool} (h : crcBit a d = crcBit b d) : a = b := by
  have h0 := crcBit_xor a b d d
  rw [h, BitVec.xor_self] at h0
  exact BitVec.xor_eq_zero_iff.1 (crcBit_eq_zero (by cases d <;> simpa using h0))

end Sys2Proof.Machine
end

