-- ==== Sys2Proof/Laws/Codec.lean ====
section
/-! SUPPORT. What the codec's functions can answer, one lemma per function and outcome. -/

namespace Sys2Proof.Machine

@[simp] theorem crcEmit_length (acc : Word) : (crcEmit acc).length = 2 := rfl

@[simp] theorem checksum_length (bytes : List Byte) : (checksum bytes).length = 2 := rfl

@[simp] theorem crcBytes_nil (acc : Word) : crcBytes acc [] = acc := rfl

@[simp] theorem crcBytes_cons (acc : Word) (b : Byte) (bytes : List Byte) :
    crcBytes acc (b :: bytes) = crcBytes (crcByte acc b) bytes := rfl

theorem crcBytes_append (acc : Word) (s t : List Byte) :
    crcBytes acc (s ++ t) = crcBytes (crcBytes acc s) t := List.foldl_append

/-- The two emitted bytes determine the accumulator. -/
theorem crcEmit_injective {a b : Word} (h : crcEmit a = crcEmit b) : a = b := by
  simp only [crcEmit, List.cons.injEq, and_true] at h
  obtain ⟨hlo, hhi⟩ := h
  apply BitVec.eq_of_getLsbD_eq
  intro k hk
  by_cases h8 : k < 8
  · simpa [h8] using congrArg (·.getLsbD k) hlo
  · have := congrArg (·.getLsbD (k - 8)) hhi
    simp only [BitVec.getLsbD_setWidth, BitVec.getLsbD_ushiftRight] at this
    have e : 8 + (k - 8) = k := by omega
    have l : k - 8 < 8 := by omega
    simpa [e, l] using this

theorem checksum_injective_acc {s t : List Byte} (h : checksum s = checksum t) :
    crcBytes 0 s = crcBytes 0 t := crcEmit_injective h

@[simp] theorem commandHead_length (c : Cmd) : (commandHead c).length = 5 + c.payload.length := by
  simp [commandHead]; omega

@[simp] theorem maxPayload_eq : maxPayload = 248 := rfl

/-- A payload that fits is encoded; a longer one is refused. -/
theorem encodeCommand_of_fits {c : Cmd} (h : c.payload.length ≤ 248) :
    encodeCommand c = .ok (commandHead c ++ checksum (commandHead c)) := by
  unfold encodeCommand; rw [maxPayload_eq, if_neg (by omega)]

theorem encodeCommand_of_long {c : Cmd} (h : 248 < c.payload.length) :
    encodeCommand c = .error (.refused .payloadTooLong) := by
  unfold encodeCommand; rw [maxPayload_eq, if_pos h]

theorem encodeCommand_ok {c : Cmd} {frame : List Byte} (h : encodeCommand c = .ok frame) :
    c.payload.length ≤ 248 ∧ frame = commandHead c ++ checksum (commandHead c) := by
  unfold encodeCommand at h
  rw [maxPayload_eq] at h
  split at h
  · cases h
  · exact ⟨by omega, by cases h; rfl⟩

@[simp] theorem frameBody_append_checksum (body bytes : List Byte) :
    frameBody (body ++ checksum bytes) = body := by
  simp [frameBody]

@[simp] theorem frameCrc_append_checksum (body bytes : List Byte) :
    frameCrc (body ++ checksum bytes) = checksum bytes := by
  simp [frameCrc]

theorem frameBody_append_frameCrc (f : List Byte) : frameBody f ++ frameCrc f = f :=
  List.take_append_drop _ _

/-- A frame that ends in the checksum of its body decodes to the body less its first byte. -/
theorem decodeReply_append_checksum {body : List Byte} (h : 2 ≤ body.length) :
    decodeReply (body ++ checksum body) =
      .ok ⟨body.drop 1, if body.length = 2 then (body.drop 1).head? else none⟩ := by
  unfold decodeReply
  rw [if_neg (by simp; omega), if_neg (by simp)]
  simp only [frameBody_append_checksum, List.length_append, checksum_length]
  by_cases h2 : body.length = 2
  · rw [if_neg (by omega), if_pos h2]
  · rw [if_pos (by omega), if_neg h2]

/-- What it takes for a frame to decode, and what it then decodes to. -/
theorem decodeReply_ok {f : List Byte} {d : Decoded} (h : decodeReply f = .ok d) :
    4 ≤ f.length ∧ checksum (frameBody f) = frameCrc f ∧ d.data = (frameBody f).drop 1 ∧
      d.data.length = f.length - 3 ∧
      d.status = if f.length = 4 then d.data.head? else none := by
  unfold decodeReply at h
  split at h
  · cases h
  · split at h
    · cases h
    · rename_i h1 h2
      have hc : checksum (frameBody f) = frameCrc f := by simpa using h2
      have hl : ((frameBody f).drop 1).length = f.length - 3 := by simp [frameBody]; omega
      by_cases h4 : f.length > 4
      · simp only [h4, if_true] at h
        cases h
        exact ⟨by omega, hc, rfl, hl, by rw [if_neg (by omega)]⟩
      · simp only [h4, if_false] at h
        cases h
        exact ⟨by omega, hc, rfl, hl, by rw [if_pos (by omega)]⟩

/-- `decode` raises one of two errors only. -/
theorem decodeReply_error {f : List Byte} {e : Error} (h : decodeReply f = .error e) :
    (f.length < 4 ∧ e = .frameTooShort) ∨
      (4 ≤ f.length ∧ checksum (frameBody f) ≠ frameCrc f ∧ e = .checksumMismatch) := by
  unfold decodeReply at h
  split at h
  · exact .inl ⟨by assumption, by cases h; rfl⟩
  · split at h
    · exact .inr ⟨by omega, by assumption, by cases h; rfl⟩
    · by_cases h4 : f.length > 4 <;> simp [h4] at h

/-- Decoded data is never empty. -/
theorem decodeReply_ok_cons {f : List Byte} {d : Decoded} (h : decodeReply f = .ok d) :
    ∃ m r, d.data = m :: r := by
  obtain ⟨h4, -, -, hl, -⟩ := decodeReply_ok h
  cases hd : d.data with
  | nil => rw [hd] at hl; simp at hl; omega
  | cons m r => exact ⟨m, r, rfl⟩

/-- What `execute` returns is never empty, so SELFTEST finds a byte 0. -/
theorem replyValue_ok_cons {f data : List Byte} (h : replyValue f = .ok data) : ∃ m r, data = m :: r := by
  unfold replyValue at h
  cases hd : decodeReply f with
  | error e => rw [hd] at h; cases h
  | ok d =>
    rw [hd] at h
    dsimp only at h
    cases hs : d.status with
    | none => rw [hs] at h; cases h; exact decodeReply_ok_cons hd
    | some code =>
      rw [hs] at h
      dsimp only at h
      split at h
      · cases h; exact decodeReply_ok_cons hd
      · cases h

/-- `decode` and the status policy never refuse. -/
theorem replyValue_error_not_refusal {f : List Byte} {e : Error} (h : replyValue f = .error e) :
    isRefusal (some e) = false := by
  unfold replyValue at h
  cases hd : decodeReply f with
  | error e' =>
    rw [hd] at h
    cases h
    rcases decodeReply_error hd with ⟨-, rfl⟩ | ⟨-, -, rfl⟩ <;> rfl
  | ok d =>
    rw [hd] at h
    dsimp only at h
    split at h
    · cases h
    · split at h
      · cases h
      · rename_i hso
        cases h
        unfold statusOutcome at hso
        split at hso
        · cases hso
        · split at hso
          · cases hso
          · split at hso <;> cases hso <;> rfl

/-- The wake verdict is membership in the reply set of R114. -/
theorem wakeReplyGood_iff {r : List Byte} (hr : r.length = 4) : wakeReplyGood r = true ↔ GoodWakeReply r := by
  obtain ⟨cc, ss, x, y, rfl⟩ : ∃ a b c d, r = [a, b, c, d] := by
    match r, hr with
    | [a, b, c, d], _ => exact ⟨a, b, c, d, rfl⟩
  have hb : frameBody [cc, ss, x, y] = [cc, ss] := rfl
  have hk : frameCrc [cc, ss, x, y] = [x, y] := rfl
  unfold wakeReplyGood GoodWakeReply decodeReply
  rw [hb, hk]
  by_cases hc : checksum [cc, ss] = [x, y]
  · simp only [List.length_cons, List.length_nil, hc]
    simp only [statusOutcome]
    constructor
    · intro h
      refine ⟨cc, ss, ?_, by simp [hc]⟩
      by_contra hn
      simp only [not_or] at hn
      revert h
      have h0 : ¬ ss = 0#8 := hn.1
      have h1 : ¬ ss = 17#8 := hn.2
      by_cases hk : (classify ss).known = true <;> simp [h0, h1, hk]
    · rintro ⟨cc', ss', hss, he⟩
      simp only [List.cons_append, List.nil_append, List.cons.injEq] at he
      obtain ⟨-, rfl, -⟩ := he
      rcases hss with rfl | rfl <;> simp
  · simp only [List.length_cons, List.length_nil]
    simp only [ne_eq, hc, not_false_eq_true]
    constructor
    · intro h; simp at h
    · rintro ⟨cc', ss', hss, he⟩
      simp only [List.cons_append, List.nil_append, List.cons.injEq] at he
      obtain ⟨rfl, rfl, he⟩ := he
      exact absurd he.symm hc

end Sys2Proof.Machine
end

