-- ==== Sys2Proof/Laws/State.lean ====
section
/-! SUPPORT. What each named update of the state does to each field, one lemma per field, so that no later proof
unfolds a record update. -/

namespace Sys2Proof.Machine

@[simp] theorem goto_session (s : State) (p : Phase) :
    (s.goto p).session = s.session := rfl
@[simp] theorem goto_busy (s : State) (p : Phase) :
    (s.goto p).busy = s.busy := rfl
@[simp] theorem goto_cfg (s : State) (p : Phase) :
    (s.goto p).cfg = s.cfg := rfl
@[simp] theorem goto_acc (s : State) (p : Phase) :
    (s.goto p).acc = s.acc := rfl
@[simp] theorem goto_cmd (s : State) (p : Phase) :
    (s.goto p).cmd = s.cmd := rfl
@[simp] theorem goto_txbuf (s : State) (p : Phase) :
    (s.goto p).txbuf = s.txbuf := rfl
@[simp] theorem goto_rxlen (s : State) (p : Phase) :
    (s.goto p).rxlen = s.rxlen := rfl
@[simp] theorem goto_rxbuf (s : State) (p : Phase) :
    (s.goto p).rxbuf = s.rxbuf := rfl
@[simp] theorem goto_phase (s : State) (p : Phase) :
    (s.goto p).phase = p := rfl
@[simp] theorem goto_err (s : State) (p : Phase) :
    (s.goto p).err = s.err := rfl
@[simp] theorem goto_result (s : State) (p : Phase) :
    (s.goto p).result = s.result := rfl
@[simp] theorem goto_op (s : State) (p : Phase) :
    (s.goto p).op = s.op := rfl
@[simp] theorem goto_held (s : State) (p : Phase) :
    (s.goto p).held = s.held := rfl
@[simp] theorem goto_answers (s : State) (p : Phase) :
    (s.goto p).answers = s.answers := rfl
@[simp] theorem goto_trace (s : State) (p : Phase) :
    (s.goto p).trace = s.trace := rfl
@[simp] theorem goto_delivered (s : State) (p : Phase) :
    (s.goto p).delivered = s.delivered := rfl
@[simp] theorem goto_draws (s : State) (p : Phase) :
    (s.goto p).draws = s.draws := rfl
@[simp] theorem delay_session (s : State) (n : Nat) :
    (s.delay n).session = s.session := rfl
@[simp] theorem delay_busy (s : State) (n : Nat) :
    (s.delay n).busy = s.busy := rfl
@[simp] theorem delay_cfg (s : State) (n : Nat) :
    (s.delay n).cfg = s.cfg := rfl
@[simp] theorem delay_acc (s : State) (n : Nat) :
    (s.delay n).acc = s.acc := rfl
@[simp] theorem delay_cmd (s : State) (n : Nat) :
    (s.delay n).cmd = s.cmd := rfl
@[simp] theorem delay_txbuf (s : State) (n : Nat) :
    (s.delay n).txbuf = s.txbuf := rfl
@[simp] theorem delay_rxlen (s : State) (n : Nat) :
    (s.delay n).rxlen = s.rxlen := rfl
@[simp] theorem delay_rxbuf (s : State) (n : Nat) :
    (s.delay n).rxbuf = s.rxbuf := rfl
@[simp] theorem delay_phase (s : State) (n : Nat) :
    (s.delay n).phase = s.phase := rfl
@[simp] theorem delay_err (s : State) (n : Nat) :
    (s.delay n).err = s.err := rfl
@[simp] theorem delay_result (s : State) (n : Nat) :
    (s.delay n).result = s.result := rfl
@[simp] theorem delay_op (s : State) (n : Nat) :
    (s.delay n).op = s.op := rfl
@[simp] theorem delay_held (s : State) (n : Nat) :
    (s.delay n).held = s.held := rfl
@[simp] theorem delay_answers (s : State) (n : Nat) :
    (s.delay n).answers = s.answers := rfl
@[simp] theorem delay_trace (s : State) (n : Nat) :
    (s.delay n).trace = s.trace ++ [.delay n] := rfl
@[simp] theorem delay_delivered (s : State) (n : Nat) :
    (s.delay n).delivered = s.delivered := rfl
@[simp] theorem delay_draws (s : State) (n : Nat) :
    (s.delay n).draws = s.draws := rfl
@[simp] theorem sum_session (s : State) (bytes : List Byte) :
    (s.sum bytes).session = s.session := rfl
@[simp] theorem sum_busy (s : State) (bytes : List Byte) :
    (s.sum bytes).busy = s.busy := rfl
@[simp] theorem sum_cfg (s : State) (bytes : List Byte) :
    (s.sum bytes).cfg = s.cfg := rfl
@[simp] theorem sum_acc (s : State) (bytes : List Byte) :
    (s.sum bytes).acc = crcBytes 0 bytes := rfl
@[simp] theorem sum_cmd (s : State) (bytes : List Byte) :
    (s.sum bytes).cmd = s.cmd := rfl
@[simp] theorem sum_txbuf (s : State) (bytes : List Byte) :
    (s.sum bytes).txbuf = s.txbuf := rfl
@[simp] theorem sum_rxlen (s : State) (bytes : List Byte) :
    (s.sum bytes).rxlen = s.rxlen := rfl
@[simp] theorem sum_rxbuf (s : State) (bytes : List Byte) :
    (s.sum bytes).rxbuf = s.rxbuf := rfl
@[simp] theorem sum_phase (s : State) (bytes : List Byte) :
    (s.sum bytes).phase = s.phase := rfl
@[simp] theorem sum_err (s : State) (bytes : List Byte) :
    (s.sum bytes).err = s.err := rfl
@[simp] theorem sum_result (s : State) (bytes : List Byte) :
    (s.sum bytes).result = s.result := rfl
@[simp] theorem sum_op (s : State) (bytes : List Byte) :
    (s.sum bytes).op = s.op := rfl
@[simp] theorem sum_held (s : State) (bytes : List Byte) :
    (s.sum bytes).held = s.held := rfl
@[simp] theorem sum_answers (s : State) (bytes : List Byte) :
    (s.sum bytes).answers = s.answers := rfl
@[simp] theorem sum_trace (s : State) (bytes : List Byte) :
    (s.sum bytes).trace = s.trace := rfl
@[simp] theorem sum_delivered (s : State) (bytes : List Byte) :
    (s.sum bytes).delivered = s.delivered := rfl
@[simp] theorem sum_draws (s : State) (bytes : List Byte) :
    (s.sum bytes).draws = s.draws := rfl
@[simp] theorem hold_session (w : PortWord) (s : State) :
    (hold w s).session = s.session := rfl
@[simp] theorem hold_busy (w : PortWord) (s : State) :
    (hold w s).busy = s.busy := rfl
@[simp] theorem hold_cfg (w : PortWord) (s : State) :
    (hold w s).cfg = s.cfg := rfl
@[simp] theorem hold_acc (w : PortWord) (s : State) :
    (hold w s).acc = s.acc := rfl
@[simp] theorem hold_cmd (w : PortWord) (s : State) :
    (hold w s).cmd = s.cmd := rfl
@[simp] theorem hold_txbuf (w : PortWord) (s : State) :
    (hold w s).txbuf = s.txbuf := rfl
@[simp] theorem hold_rxlen (w : PortWord) (s : State) :
    (hold w s).rxlen = s.rxlen := rfl
@[simp] theorem hold_rxbuf (w : PortWord) (s : State) :
    (hold w s).rxbuf = s.rxbuf := rfl
@[simp] theorem hold_phase (w : PortWord) (s : State) :
    (hold w s).phase = s.phase := rfl
@[simp] theorem hold_err (w : PortWord) (s : State) :
    (hold w s).err = s.err := rfl
@[simp] theorem hold_result (w : PortWord) (s : State) :
    (hold w s).result = s.result := rfl
@[simp] theorem hold_op (w : PortWord) (s : State) :
    (hold w s).op = s.op := rfl
@[simp] theorem hold_held (w : PortWord) (s : State) :
    (hold w s).held = s.held ++ [w] := rfl
@[simp] theorem hold_answers (w : PortWord) (s : State) :
    (hold w s).answers = s.answers := rfl
@[simp] theorem hold_trace (w : PortWord) (s : State) :
    (hold w s).trace = s.trace := rfl
@[simp] theorem hold_delivered (w : PortWord) (s : State) :
    (hold w s).delivered = s.delivered := rfl
@[simp] theorem hold_draws (w : PortWord) (s : State) :
    (hold w s).draws = s.draws := rfl
@[simp] theorem latch_session (i : Option Instr) (s : State) :
    (latch i s).session = s.session := rfl
@[simp] theorem latch_busy (i : Option Instr) (s : State) :
    (latch i s).busy = true := rfl
@[simp] theorem latch_cfg (i : Option Instr) (s : State) :
    (latch i s).cfg = s.cfg := rfl
@[simp] theorem latch_acc (i : Option Instr) (s : State) :
    (latch i s).acc = s.acc := rfl
@[simp] theorem latch_cmd (i : Option Instr) (s : State) :
    (latch i s).cmd = (i.bind (fun j => commandOf j s.cfg)).getD s.cmd := rfl
@[simp] theorem latch_txbuf (i : Option Instr) (s : State) :
    (latch i s).txbuf = s.txbuf := rfl
@[simp] theorem latch_rxlen (i : Option Instr) (s : State) :
    (latch i s).rxlen = s.rxlen := rfl
@[simp] theorem latch_rxbuf (i : Option Instr) (s : State) :
    (latch i s).rxbuf = s.rxbuf := rfl
@[simp] theorem latch_phase (i : Option Instr) (s : State) :
    (latch i s).phase = (i.map firstPhase).getD .check := rfl
@[simp] theorem latch_err (i : Option Instr) (s : State) :
    (latch i s).err = none := rfl
@[simp] theorem latch_result (i : Option Instr) (s : State) :
    (latch i s).result = none := rfl
@[simp] theorem latch_op (i : Option Instr) (s : State) :
    (latch i s).op = i := rfl
@[simp] theorem latch_held (i : Option Instr) (s : State) :
    (latch i s).held = s.held := rfl
@[simp] theorem latch_answers (i : Option Instr) (s : State) :
    (latch i s).answers = s.answers := rfl
@[simp] theorem latch_trace (i : Option Instr) (s : State) :
    (latch i s).trace = s.trace := rfl
@[simp] theorem latch_delivered (i : Option Instr) (s : State) :
    (latch i s).delivered = s.delivered := rfl
@[simp] theorem latch_draws (i : Option Instr) (s : State) :
    (latch i s).draws = s.draws := rfl
@[simp] theorem deliver_session (s : State) :
    (s.deliver).session = s.session := rfl
@[simp] theorem deliver_busy (s : State) :
    (s.deliver).busy = false := rfl
@[simp] theorem deliver_cfg (s : State) :
    (s.deliver).cfg = s.cfg := rfl
@[simp] theorem deliver_acc (s : State) :
    (s.deliver).acc = s.acc := rfl
@[simp] theorem deliver_cmd (s : State) :
    (s.deliver).cmd = s.cmd := rfl
@[simp] theorem deliver_txbuf (s : State) :
    (s.deliver).txbuf = s.txbuf := rfl
@[simp] theorem deliver_rxlen (s : State) :
    (s.deliver).rxlen = s.rxlen := rfl
@[simp] theorem deliver_rxbuf (s : State) :
    (s.deliver).rxbuf = s.rxbuf := rfl
@[simp] theorem deliver_phase (s : State) :
    (s.deliver).phase = .idle := rfl
@[simp] theorem deliver_err (s : State) :
    (s.deliver).err = s.err := rfl
@[simp] theorem deliver_result (s : State) :
    (s.deliver).result = s.result := rfl
@[simp] theorem deliver_op (s : State) :
    (s.deliver).op = none := rfl
@[simp] theorem deliver_held (s : State) :
    (s.deliver).held = s.held := rfl
@[simp] theorem deliver_answers (s : State) :
    (s.deliver).answers = s.answers := rfl
@[simp] theorem deliver_trace (s : State) :
    (s.deliver).trace = s.trace := rfl
@[simp] theorem deliver_delivered (s : State) :
    (s.deliver).delivered = s.delivered ++ [⟨s.err, if s.err.isSome then none else s.result⟩] := rfl
@[simp] theorem deliver_draws (s : State) :
    (s.deliver).draws = s.draws := rfl
@[simp] theorem leaveBody_session (s : State) :
    s.leaveBody.session = s.session := rfl
@[simp] theorem leaveBody_busy (s : State) :
    s.leaveBody.busy = s.busy := rfl
@[simp] theorem leaveBody_cfg (s : State) :
    s.leaveBody.cfg = s.cfg := rfl
@[simp] theorem leaveBody_acc (s : State) :
    s.leaveBody.acc = s.acc := rfl
@[simp] theorem leaveBody_cmd (s : State) :
    s.leaveBody.cmd = s.cmd := rfl
@[simp] theorem leaveBody_txbuf (s : State) :
    s.leaveBody.txbuf = s.txbuf := rfl
@[simp] theorem leaveBody_rxlen (s : State) :
    s.leaveBody.rxlen = s.rxlen := rfl
@[simp] theorem leaveBody_rxbuf (s : State) :
    s.leaveBody.rxbuf = s.rxbuf := rfl
@[simp] theorem leaveBody_phase (s : State) :
    s.leaveBody.phase = bodyExit s.cmd.autoWake := rfl
@[simp] theorem leaveBody_err (s : State) :
    s.leaveBody.err = s.err := rfl
@[simp] theorem leaveBody_result (s : State) :
    s.leaveBody.result = s.result := rfl
@[simp] theorem leaveBody_op (s : State) :
    s.leaveBody.op = s.op := rfl
@[simp] theorem leaveBody_held (s : State) :
    s.leaveBody.held = s.held := rfl
@[simp] theorem leaveBody_answers (s : State) :
    s.leaveBody.answers = s.answers := rfl
@[simp] theorem leaveBody_trace (s : State) :
    s.leaveBody.trace = s.trace := rfl
@[simp] theorem leaveBody_delivered (s : State) :
    s.leaveBody.delivered = s.delivered := rfl
@[simp] theorem leaveBody_draws (s : State) :
    s.leaveBody.draws = s.draws := rfl
@[simp] theorem raise_session (s : State) (e : Error) :
    (s.raise e).session = s.session := by
  unfold State.raise; cases s.err <;> rfl
@[simp] theorem raise_busy (s : State) (e : Error) :
    (s.raise e).busy = s.busy := by
  unfold State.raise; cases s.err <;> rfl
@[simp] theorem raise_cfg (s : State) (e : Error) :
    (s.raise e).cfg = s.cfg := by
  unfold State.raise; cases s.err <;> rfl
@[simp] theorem raise_acc (s : State) (e : Error) :
    (s.raise e).acc = s.acc := by
  unfold State.raise; cases s.err <;> rfl
@[simp] theorem raise_cmd (s : State) (e : Error) :
    (s.raise e).cmd = s.cmd := by
  unfold State.raise; cases s.err <;> rfl
@[simp] theorem raise_txbuf (s : State) (e : Error) :
    (s.raise e).txbuf = s.txbuf := by
  unfold State.raise; cases s.err <;> rfl
@[simp] theorem raise_rxlen (s : State) (e : Error) :
    (s.raise e).rxlen = s.rxlen := by
  unfold State.raise; cases s.err <;> rfl
@[simp] theorem raise_rxbuf (s : State) (e : Error) :
    (s.raise e).rxbuf = s.rxbuf := by
  unfold State.raise; cases s.err <;> rfl
@[simp] theorem raise_phase (s : State) (e : Error) :
    (s.raise e).phase = s.phase := by
  unfold State.raise; cases s.err <;> rfl
@[simp] theorem raise_err (s : State) (e : Error) :
    (s.raise e).err = some (s.err.getD e) := by
  unfold State.raise; cases h : s.err <;> simp [h]
theorem raise_result (s : State) (e : Error) :
    (s.raise e).result = if s.err.isSome then s.result else none := by
  unfold State.raise; cases h : s.err <;> simp
@[simp] theorem raise_op (s : State) (e : Error) :
    (s.raise e).op = s.op := by
  unfold State.raise; cases s.err <;> rfl
@[simp] theorem raise_held (s : State) (e : Error) :
    (s.raise e).held = s.held := by
  unfold State.raise; cases s.err <;> rfl
@[simp] theorem raise_answers (s : State) (e : Error) :
    (s.raise e).answers = s.answers := by
  unfold State.raise; cases s.err <;> rfl
@[simp] theorem raise_trace (s : State) (e : Error) :
    (s.raise e).trace = s.trace := by
  unfold State.raise; cases s.err <;> rfl
@[simp] theorem raise_delivered (s : State) (e : Error) :
    (s.raise e).delivered = s.delivered := by
  unfold State.raise; cases s.err <;> rfl
@[simp] theorem raise_draws (s : State) (e : Error) :
    (s.raise e).draws = s.draws := by
  unfold State.raise; cases s.err <;> rfl
@[simp] theorem sumReply_session (s : State) (input : List Byte) :
    (s.sumReply input).session = s.session := by
  unfold State.sumReply; split <;> rfl
@[simp] theorem sumReply_busy (s : State) (input : List Byte) :
    (s.sumReply input).busy = s.busy := by
  unfold State.sumReply; split <;> rfl
@[simp] theorem sumReply_cfg (s : State) (input : List Byte) :
    (s.sumReply input).cfg = s.cfg := by
  unfold State.sumReply; split <;> rfl
theorem sumReply_acc (s : State) (input : List Byte) :
    (s.sumReply input).acc = if input.length < 4 then s.acc else crcBytes 0 (frameBody input) := by
  unfold State.sumReply; split <;> rfl
@[simp] theorem sumReply_cmd (s : State) (input : List Byte) :
    (s.sumReply input).cmd = s.cmd := by
  unfold State.sumReply; split <;> rfl
@[simp] theorem sumReply_txbuf (s : State) (input : List Byte) :
    (s.sumReply input).txbuf = s.txbuf := by
  unfold State.sumReply; split <;> rfl
@[simp] theorem sumReply_rxlen (s : State) (input : List Byte) :
    (s.sumReply input).rxlen = s.rxlen := by
  unfold State.sumReply; split <;> rfl
@[simp] theorem sumReply_rxbuf (s : State) (input : List Byte) :
    (s.sumReply input).rxbuf = s.rxbuf := by
  unfold State.sumReply; split <;> rfl
@[simp] theorem sumReply_phase (s : State) (input : List Byte) :
    (s.sumReply input).phase = s.phase := by
  unfold State.sumReply; split <;> rfl
@[simp] theorem sumReply_err (s : State) (input : List Byte) :
    (s.sumReply input).err = s.err := by
  unfold State.sumReply; split <;> rfl
@[simp] theorem sumReply_result (s : State) (input : List Byte) :
    (s.sumReply input).result = s.result := by
  unfold State.sumReply; split <;> rfl
@[simp] theorem sumReply_op (s : State) (input : List Byte) :
    (s.sumReply input).op = s.op := by
  unfold State.sumReply; split <;> rfl
@[simp] theorem sumReply_held (s : State) (input : List Byte) :
    (s.sumReply input).held = s.held := by
  unfold State.sumReply; split <;> rfl
@[simp] theorem sumReply_answers (s : State) (input : List Byte) :
    (s.sumReply input).answers = s.answers := by
  unfold State.sumReply; split <;> rfl
@[simp] theorem sumReply_trace (s : State) (input : List Byte) :
    (s.sumReply input).trace = s.trace := by
  unfold State.sumReply; split <;> rfl
@[simp] theorem sumReply_delivered (s : State) (input : List Byte) :
    (s.sumReply input).delivered = s.delivered := by
  unfold State.sumReply; split <;> rfl
@[simp] theorem sumReply_draws (s : State) (input : List Byte) :
    (s.sumReply input).draws = s.draws := by
  unfold State.sumReply; split <;> rfl
@[simp] theorem rebuild_session (s : State) (cfg : Cfg) :
    (s.rebuild cfg).session = (State.constructed cfg).session := rfl
@[simp] theorem rebuild_busy (s : State) (cfg : Cfg) :
    (s.rebuild cfg).busy = (State.constructed cfg).busy := rfl
@[simp] theorem rebuild_cfg (s : State) (cfg : Cfg) :
    (s.rebuild cfg).cfg = (State.constructed cfg).cfg := rfl
@[simp] theorem rebuild_acc (s : State) (cfg : Cfg) :
    (s.rebuild cfg).acc = (State.constructed cfg).acc := rfl
@[simp] theorem rebuild_cmd (s : State) (cfg : Cfg) :
    (s.rebuild cfg).cmd = (State.constructed cfg).cmd := rfl
@[simp] theorem rebuild_txbuf (s : State) (cfg : Cfg) :
    (s.rebuild cfg).txbuf = (State.constructed cfg).txbuf := rfl
@[simp] theorem rebuild_rxlen (s : State) (cfg : Cfg) :
    (s.rebuild cfg).rxlen = (State.constructed cfg).rxlen := rfl
@[simp] theorem rebuild_rxbuf (s : State) (cfg : Cfg) :
    (s.rebuild cfg).rxbuf = (State.constructed cfg).rxbuf := rfl
@[simp] theorem rebuild_phase (s : State) (cfg : Cfg) :
    (s.rebuild cfg).phase = (State.constructed cfg).phase := rfl
@[simp] theorem rebuild_err (s : State) (cfg : Cfg) :
    (s.rebuild cfg).err = (State.constructed cfg).err := rfl
@[simp] theorem rebuild_result (s : State) (cfg : Cfg) :
    (s.rebuild cfg).result = (State.constructed cfg).result := rfl
@[simp] theorem rebuild_op (s : State) (cfg : Cfg) :
    (s.rebuild cfg).op = (State.constructed cfg).op := rfl
@[simp] theorem rebuild_held (s : State) (cfg : Cfg) :
    (s.rebuild cfg).held = s.held := rfl
@[simp] theorem rebuild_answers (s : State) (cfg : Cfg) :
    (s.rebuild cfg).answers = s.answers := rfl
@[simp] theorem rebuild_trace (s : State) (cfg : Cfg) :
    (s.rebuild cfg).trace = s.trace := rfl
@[simp] theorem rebuild_delivered (s : State) (cfg : Cfg) :
    (s.rebuild cfg).delivered = s.delivered := rfl
@[simp] theorem rebuild_draws (s : State) (cfg : Cfg) :
    (s.rebuild cfg).draws = s.draws := rfl

end Sys2Proof.Machine
end

