-- ==== Sys2Proof/Laws/Ops.lean ====
section
/-! SUPPORT. What each shared operation can do: the transport calls, the power-down, raising, the frame in
`txbuf`. -/

namespace Sys2Proof.Machine

@[simp] theorem fitBytes_length (n : Nat) (given : List Byte) (draws : Nat) :
    (fitBytes n given draws).length = n := by
  simp [fitBytes]; omega

/-- An answer that lists exactly the bytes asked for is taken as it stands. -/
theorem fitBytes_exact {n : Nat} {given : List Byte} (h : given.length = n) (draws : Nat) :
    fitBytes n given draws = given := by
  subst h; simp [fitBytes]

theorem outcome_bytes {n : Nat} {value : List Byte} (h : value.length = n) (draws : Nat) :
    (Answer.bytes value).outcome n draws = .got value := by
  simp [Answer.outcome, Answer.failure, Answer.given, fitBytes_exact h]

theorem drawn_bytes {n : Nat} {value : List Byte} (h : value.length = n) : (Answer.bytes value).drawn n = 0 := by
  simp [Answer.drawn, Answer.failure, Answer.given, h]

@[simp] theorem outcome_error (e n draws : Nat) : (Answer.error e).outcome n draws = .failed e := rfl

@[simp] theorem drawn_error (e n : Nat) : (Answer.error e).drawn n = 0 := rfl

@[simp] theorem failure_error (e : Nat) : (Answer.error e).failure = some e := rfl

@[simp] theorem failure_bytes (value : List Byte) : (Answer.bytes value).failure = none := rfl

@[simp] theorem failure_ok : Answer.ok.failure = none := rfl

/-- A read returns exactly `n` bytes (R32). -/
theorem outcome_got_length {a : Answer} {n draws : Nat} {bytes : List Byte} (h : a.outcome n draws = .got bytes) :
    bytes.length = n := by
  unfold Answer.outcome at h
  split at h
  · cases h
  · cases h; simp

theorem busWrite_nil {s : State} (h : s.answers = []) (t : Target) (bytes : List Byte) :
    s.busWrite t bytes = none := by
  simp [State.busWrite, h]

theorem busWrite_cons {s : State} {a : Answer} {rest : List Answer} (h : s.answers = a :: rest) (t : Target)
    (bytes : List Byte) :
    s.busWrite t bytes =
      some (a.failure, { s with answers := rest, trace := s.trace ++ [.write (locate s.cfg t) bytes a.failure] }) := by
  simp [State.busWrite, h]

theorem busRead_nil {s : State} (h : s.answers = []) (t : Target) (n : Nat) : s.busRead t n = none := by
  simp [State.busRead, h]

theorem busRead_cons {s : State} {a : Answer} {rest : List Answer} (h : s.answers = a :: rest) (t : Target)
    (n : Nat) :
    s.busRead t n =
      some (a.outcome n s.draws,
        { s with answers := rest, draws := s.draws + a.drawn n,
                 trace := s.trace ++ [.read (locate s.cfg t) n (a.outcome n s.draws)] }) := by
  simp [State.busRead, h]

/-- Everything a write can do: it has returned what the next answer says, and only the answers and the trace have
changed. -/
theorem busWrite_some {s s' : State} {t : Target} {bytes : List Byte} {f : Option Nat}
    (h : s.busWrite t bytes = some (f, s')) :
    ∃ a rest, s.answers = a :: rest ∧ f = a.failure ∧
      s' = { s with answers := rest, trace := s.trace ++ [.write (locate s.cfg t) bytes f] } := by
  unfold State.busWrite at h
  split at h
  · cases h
  · rename_i a rest ha
    simp only [Option.some.injEq, Prod.mk.injEq] at h
    obtain ⟨rfl, rfl⟩ := h
    exact ⟨a, rest, ha, rfl, rfl⟩

/-- Everything a read can do. -/
theorem busRead_some {s s' : State} {t : Target} {n : Nat} {o : ReadOutcome} (h : s.busRead t n = some (o, s')) :
    ∃ a rest, s.answers = a :: rest ∧ o = a.outcome n s.draws ∧
      s' = { s with answers := rest, draws := s.draws + a.drawn n,
                    trace := s.trace ++ [.read (locate s.cfg t) n o] } := by
  unfold State.busRead at h
  split at h
  · cases h
  · rename_i a rest ha
    simp only [Option.some.injEq, Prod.mk.injEq] at h
    obtain ⟨rfl, rfl⟩ := h
    exact ⟨a, rest, ha, rfl, rfl⟩

/-- Everything the power-down can do (R116): the write, and `session` Sleeping. -/
theorem powerDown_some {s s' : State} {t : Target} {f : Option Nat} (h : s.powerDown t = some (f, s')) :
    ∃ a rest, s.answers = a :: rest ∧ f = a.failure ∧
      s' = { s with answers := rest, trace := s.trace ++ [.write (locate s.cfg t) [] f], session := .sleeping } := by
  unfold State.powerDown at h
  split at h
  · cases h
  · rename_i f' s'' hw
    obtain ⟨a, rest, ha, hf, rfl⟩ := busWrite_some hw
    simp only [Option.some.injEq, Prod.mk.injEq] at h
    obtain ⟨rfl, rfl⟩ := h
    exact ⟨a, rest, ha, hf, rfl⟩

/-- Raising with no error standing (R181). -/
theorem raise_of_no_error {s : State} (h : s.err = none) (e : Error) :
    s.raise e = { s with err := some e, result := none } := by
  simp [State.raise, h]

/-- A standing error is never overwritten (R18). -/
theorem raise_of_error {s : State} {e' : Error} (h : s.err = some e') (e : Error) : s.raise e = s := by
  simp [State.raise, h]

/-- The encode step for a payload that fits. -/
theorem buildFrame_of_fits {s : State} (h : s.cmd.payload.length ≤ 248) :
    s.buildFrame =
      .ok { s.sum (commandHead s.cmd) with txbuf := commandHead s.cmd ++ checksum (commandHead s.cmd) } := by
  simp [State.buildFrame, encodeCommand_of_fits h]

theorem buildFrame_of_long {s : State} (h : 248 < s.cmd.payload.length) :
    s.buildFrame = .error (.refused .payloadTooLong) := by
  simp [State.buildFrame, encodeCommand_of_long h]

@[simp] theorem bodyExit_true : bodyExit true = .cleanup := rfl

@[simp] theorem bodyExit_false : bodyExit false = .done := rfl

@[simp] theorem ticks_zero (s : State) : ticks 0 s = s := rfl

theorem ticks_succ (n : Nat) (s : State) : ticks (n + 1) s = ticks n (tick s) := rfl

theorem ticks_add (m n : Nat) (s : State) : ticks (m + n) s = ticks n (ticks m s) := by
  induction m generalizing s with
  | zero => simp
  | succ m ih => rw [Nat.add_right_comm, ticks_succ, ih, ticks_succ]

/-- A state that one phase leaves alone is left alone by any number of them. -/
theorem ticks_fixed {s : State} (h : tick s = s) (n : Nat) : ticks n s = s := by
  induction n with
  | zero => rfl
  | succ n ih => rw [ticks_succ, h, ih]

/-- An operation that reaches, within the longest path, a state that no phase changes, settles there. -/
theorem settle_eq {s t : State} {n : Nat} (hn : n ≤ longestPath) (h : ticks n s = t) (ht : tick t = t) :
    settle s = t := by
  unfold settle
  obtain ⟨m, hm⟩ := Nat.le.dest hn
  rw [← hm, ticks_add, h, ticks_fixed ht]

/-- What holds before and is kept by every phase holds after any number of phases. -/
theorem ticks_induction {P : State → Prop} (keep : ∀ s, P s → P (tick s)) (n : Nat) {s : State} (h : P s) :
    P (ticks n s) := by
  induction n generalizing s with
  | zero => exact h
  | succ n ih => exact ih (keep s h)

theorem settle_induction {P : State → Prop} (keep : ∀ s, P s → P (tick s)) {s : State} (h : P s) : P (settle s) :=
  ticks_induction keep longestPath h

theorem perform_of_busy {s : State} (h : s.busy = true) (i : Instr) : perform i s = hold (encode i) s := by
  simp [perform, h]

theorem perform_of_free {s : State} (h : s.busy = false) (i : Instr) :
    perform i s = settle (latch (some i) s) := by
  simp [perform, h]

/-- Every arm of `exec` is the shared performance of its own instruction. -/
theorem exec_eq (i : Instr) (s : State) : exec i s = .next (perform i s) := by
  cases i <;> rfl

end Sys2Proof.Machine
end

