-- ==== Sys2Proof/Laws/Phases.lean ====
section
/-! SUPPORT. What one phase does, one lemma per phase and outcome, for any state in that phase. A phase that waits
for a transport call leaves the state alone. -/

namespace Sys2Proof.Machine

variable {s : State} {a : Answer} {rest : List Answer}

theorem tick_idle (hp : s.phase = .idle) : tick s = s := by simp [tick, hp]

theorem tick_done (hp : s.phase = .done) : tick s = s.deliver := by simp [tick, hp]

/-! ### Waiting -/

theorem tick_wakeWrite_nil (hp : s.phase = .wakeWrite) (ha : s.answers = []) : tick s = s := by
  simp [tick, hp, phaseWakeWrite, busWrite_nil ha]

theorem tick_wakeRead_nil (hp : s.phase = .wakeRead) (ha : s.answers = []) : tick s = s := by
  simp [tick, hp, phaseWakeRead, busRead_nil ha]

theorem tick_cmdWrite_nil (hp : s.phase = .cmdWrite) (ha : s.answers = []) : tick s = s := by
  simp [tick, hp, phaseCmdWrite, busWrite_nil ha]

theorem tick_readLen_nil (hp : s.phase = .readLen) (ha : s.answers = []) : tick s = s := by
  simp [tick, hp, phaseReadLen, busRead_nil ha]

theorem tick_readBody_nil {n : Nat} (hp : s.phase = .readBody)
    (hn : bodyReadLength s.cfg.rxMode s.rxlen = some n) (ha : s.answers = []) : tick s = s := by
  simp [tick, hp, phaseReadBody, hn, busRead_nil ha]

theorem tick_cleanup_nil (hp : s.phase = .cleanup) (ha : s.answers = []) : tick s = s := by
  simp [tick, hp, phaseCleanup, State.powerDown, busWrite_nil ha]

theorem tick_powerWrite_nil (hp : s.phase = .powerWrite) (ha : s.answers = []) : tick s = s := by
  simp [tick, hp, phasePowerWrite, State.powerDown, busWrite_nil ha]

/-! ### Check -/

/-- The operations whose `Check` is the operand checks of EXECUTE. -/
def isCommand (i : Option Instr) : Bool :=
  match i with
  | some (.execute _ _ _ _ _) | some .selftest | some .info | some (.selftestFrame _ _ _)
  | some (.infoFrame _ _ _) => true
  | _ => false

theorem tick_check_command (hp : s.phase = .check) (hc : isCommand s.op = true) : tick s = checkCommand s := by
  simp only [tick, hp, phaseCheck]
  cases ho : s.op with
  | none => simp [ho, isCommand] at hc
  | some i => cases i <;> simp_all [isCommand]

theorem checkCommand_long (hl : 248 < s.cmd.payload.length) :
    checkCommand s = (s.raise (.refused .payloadTooLong)).goto .done := by
  simp [checkCommand, hl]

theorem checkCommand_notAwake (hl : s.cmd.payload.length ≤ 248) (hw : s.cmd.autoWake = false)
    (hs : s.session ≠ .awake) : checkCommand s = (s.raise (.refused .notAwake)).goto .done := by
  simp [checkCommand, hw, hs]; omega

theorem checkCommand_wake (hl : s.cmd.payload.length ≤ 248) (hw : s.cmd.autoWake = true) :
    checkCommand s = s.goto .wakeWrite := by
  simp [checkCommand, hw]; omega

theorem checkCommand_awake (hl : s.cmd.payload.length ≤ 248) (hw : s.cmd.autoWake = false)
    (hs : s.session = .awake) : checkCommand s = s.goto .encode := by
  simp [checkCommand, hw, hs]; omega

/-! ### The wake handshake -/

theorem tick_wakeWrite (hp : s.phase = .wakeWrite) (ha : s.answers = a :: rest) :
    tick s = { s with answers := rest, phase := .wakeSettle,
                      trace := s.trace ++ [.write (locate s.cfg s.cfg.wakeTarget) [] a.failure] } := by
  simp [tick, hp, phaseWakeWrite, busWrite_cons ha, State.goto]

theorem tick_wakeSettle (hp : s.phase = .wakeSettle) :
    tick s = { s with phase := .wakeRead, trace := s.trace ++ [.delay s.cfg.tWakeSettle] } := by
  simp [tick, hp, phaseWakeSettle, State.delay, State.goto]

/-- The state after the wake read has returned. -/
def State.afterWakeRead (s : State) (a : Answer) (rest : List Answer) : State :=
  { s with answers := rest, draws := s.draws + a.drawn 4,
           trace := s.trace ++ [.read (locate s.cfg s.cfg.cmdTarget) 4 (a.outcome 4 s.draws)] }

theorem tick_wakeRead_failed {e : Nat} (hp : s.phase = .wakeRead) (ha : s.answers = a :: rest)
    (ho : a.outcome 4 s.draws = .failed e) (he : s.err = none) :
    tick s = { s.afterWakeRead a rest with
      session := .faulted, err := some (.transport e), result := none,
      phase := if s.op = some .wake then .done else .cleanup } := by
  simp [tick, hp, phaseWakeRead, busRead_cons ha, ho, State.wakeFails, State.afterWakeRead, State.raise, he,
    State.goto]

theorem tick_wakeRead_bad {r : List Byte} (hp : s.phase = .wakeRead) (ha : s.answers = a :: rest)
    (ho : a.outcome 4 s.draws = .got r) (hg : wakeReplyGood r = false) (he : s.err = none) :
    tick s = { s.afterWakeRead a rest with
      session := .faulted, err := some .wakeFailed, result := none, rxbuf := r, acc := crcBytes 0 (r.take 2),
      phase := if s.op = some .wake then .done else .cleanup } := by
  have hr := outcome_got_length ho
  simp [tick, hp, phaseWakeRead, busRead_cons ha, ho, hg, State.wakeFails, State.afterWakeRead, State.raise, he,
    State.goto, State.sumReply, hr, State.sum, frameBody]

theorem tick_wakeRead_good {r : List Byte} (hp : s.phase = .wakeRead) (ha : s.answers = a :: rest)
    (ho : a.outcome 4 s.draws = .got r) (hg : wakeReplyGood r = true) :
    tick s = { s.afterWakeRead a rest with
      session := .awake, rxbuf := r, acc := crcBytes 0 (r.take 2),
      phase := if s.op = some .wake then .done else .encode } := by
  have hr := outcome_got_length ho
  simp [tick, hp, phaseWakeRead, busRead_cons ha, ho, hg, State.wakeSucceeds, State.afterWakeRead,
    State.goto, State.sumReply, hr, State.sum, frameBody]

/-! ### The command exchange -/

theorem tick_encode (hp : s.phase = .encode) (hr : s.op.bind readyFrame = none)
    (hl : s.cmd.payload.length ≤ 248) :
    tick s = { s with phase := .cmdWrite, acc := crcBytes 0 (commandHead s.cmd),
                      txbuf := commandHead s.cmd ++ checksum (commandHead s.cmd) } := by
  simp [tick, hp, phaseEncode, hr, buildFrame_of_fits hl, State.sum, State.goto]

theorem tick_encode_ready {frame : List Byte} (hp : s.phase = .encode) (hr : s.op.bind readyFrame = some frame) :
    tick s = { s with phase := .cmdWrite, txbuf := frame } := by
  simp [tick, hp, phaseEncode, hr, State.goto]

theorem tick_cmdWrite_ok (hp : s.phase = .cmdWrite) (ha : s.answers = a :: rest) (hk : a.failure = none) :
    tick s = { s with answers := rest, phase := .execWait,
                      trace := s.trace ++ [.write (locate s.cfg s.cfg.cmdTarget) s.txbuf none] } := by
  simp [tick, hp, phaseCmdWrite, busWrite_cons ha, hk, State.goto]

theorem tick_cmdWrite_failed {e : Nat} (hp : s.phase = .cmdWrite) (ha : s.answers = a :: rest)
    (hk : a.failure = some e) (he : s.err = none) :
    tick s = { s with
      answers := rest, err := some (.transport e), result := none,
      phase := bodyExit s.cmd.autoWake,
      trace := s.trace ++ [.write (locate s.cfg s.cfg.cmdTarget) s.txbuf (some e)] } := by
  simp [tick, hp, phaseCmdWrite, busWrite_cons ha, hk, State.raise, he, State.leaveBody, State.goto]

theorem tick_execWait (hp : s.phase = .execWait) :
    tick s = { s with phase := .readLen, trace := s.trace ++ [.delay s.cfg.tExec] } := by
  simp [tick, hp, phaseExecWait, State.delay, State.goto]

/-- The state after a reply read of `n` bytes has returned. -/
def State.afterReply (s : State) (n : Nat) (a : Answer) (rest : List Answer) : State :=
  { s with answers := rest, draws := s.draws + a.drawn n,
           trace := s.trace ++ [.read (locate s.cfg s.cfg.cmdTarget) n (a.outcome n s.draws)] }

theorem tick_readLen_failed {e : Nat} (hp : s.phase = .readLen) (ha : s.answers = a :: rest)
    (ho : a.outcome 1 s.draws = .failed e) (he : s.err = none) :
    tick s = { s.afterReply 1 a rest with
      err := some (.transport e), result := none, phase := bodyExit s.cmd.autoWake } := by
  simp [tick, hp, phaseReadLen, busRead_cons ha, ho, State.raise, he, State.leaveBody, State.goto,
    State.afterReply]

theorem tick_readLen_got {r : List Byte} (hp : s.phase = .readLen) (ha : s.answers = a :: rest)
    (ho : a.outcome 1 s.draws = .got r) :
    tick s = { s.afterReply 1 a rest with rxlen := r.headD 0, phase := .readBody } := by
  simp [tick, hp, phaseReadLen, busRead_cons ha, ho, State.goto, State.afterReply]

theorem tick_readBody_none (hp : s.phase = .readBody) (hn : bodyReadLength s.cfg.rxMode s.rxlen = none) :
    tick s = { s with rxbuf := replyFrame s.cfg.rxMode s.rxlen [], phase := .decode } := by
  simp [tick, hp, phaseReadBody, hn, State.goto]

theorem tick_readBody_failed {n e : Nat} (hp : s.phase = .readBody)
    (hn : bodyReadLength s.cfg.rxMode s.rxlen = some n) (ha : s.answers = a :: rest)
    (ho : a.outcome n s.draws = .failed e) (he : s.err = none) :
    tick s = { s.afterReply n a rest with
      err := some (.transport e), result := none, phase := bodyExit s.cmd.autoWake } := by
  simp [tick, hp, phaseReadBody, hn, busRead_cons ha, ho, State.raise, he, State.leaveBody, State.goto,
    State.afterReply]

theorem tick_readBody_got {n : Nat} {r : List Byte} (hp : s.phase = .readBody)
    (hn : bodyReadLength s.cfg.rxMode s.rxlen = some n) (ha : s.answers = a :: rest)
    (ho : a.outcome n s.draws = .got r) :
    tick s = { s.afterReply n a rest with rxbuf := replyFrame s.cfg.rxMode s.rxlen r, phase := .decode } := by
  simp [tick, hp, phaseReadBody, hn, busRead_cons ha, ho, State.goto, State.afterReply]

theorem tick_decode_error {e : Error} (hp : s.phase = .decode) (hv : replyValue s.rxbuf = .error e)
    (he : s.err = none) :
    tick s = { s.sumReply s.rxbuf with
      err := some e, result := none, phase := bodyExit s.cmd.autoWake } := by
  simp [tick, hp, phaseDecode, hv, State.raise, he, State.leaveBody, State.goto]

theorem tick_decode_ok {data : List Byte} (hp : s.phase = .decode) (hv : replyValue s.rxbuf = .ok data) :
    tick s = { s.sumReply s.rxbuf with
      result := some (.bytes data), phase := bodyExit s.cmd.autoWake } := by
  simp [tick, hp, phaseDecode, hv, State.leaveBody, State.goto]

/-! ### Cleanup, power writes, interpretation -/

theorem tick_cleanup (hp : s.phase = .cleanup) (ha : s.answers = a :: rest) :
    tick s = { s with
      answers := rest, session := .sleeping,
      trace := s.trace ++ [.write (locate s.cfg s.cfg.idleTarget) [] a.failure],
      phase := if interprets s.op && s.err.isNone then .interpret else .done } := by
  simp [tick, hp, phaseCleanup, State.powerDown, busWrite_cons ha, State.goto]

theorem tick_powerWrite (hp : s.phase = .powerWrite) (ha : s.answers = a :: rest) (he : s.err = none)
    (hr : s.result = none) :
    tick s = { s with
      answers := rest, session := .sleeping, phase := .done, err := a.failure.map Error.transport,
      trace := s.trace ++ [.write (locate s.cfg
        (if s.op = some .sleep then s.cfg.sleepTarget else s.cfg.idleTarget)) [] a.failure] } := by
  cases hf : a.failure <;>
    simp [tick, hp, phasePowerWrite, State.powerDown, busWrite_cons ha, hf, State.raise, he, hr, State.goto]

theorem tick_interpret_selftest {m : Byte} {r : List Byte} (hp : s.phase = .interpret) (ho : s.op = some .selftest)
    (hr : s.result = some (.bytes (m :: r))) :
    tick s = { s with phase := .done, result := some (.selfTest (selftestInterpret m)) } := by
  simp [tick, hp, phaseInterpret, ho, interpretSelftest, hr, State.goto]

theorem tick_interpret_info_ok {r : List Byte} {report : InfoReport} (hp : s.phase = .interpret)
    (ho : s.op = some .info) (hr : s.result = some (.bytes r)) (hx : infoExtract r = .ok report) :
    tick s = { s with phase := .done, result := some (.info report) } := by
  simp [tick, hp, phaseInterpret, ho, interpretInfo, hr, hx, State.goto]

theorem tick_interpret_info_error {r : List Byte} {e : Error} (hp : s.phase = .interpret)
    (ho : s.op = some .info) (hr : s.result = some (.bytes r)) (hx : infoExtract r = .error e)
    (he : s.err = none) :
    tick s = { s with phase := .done, err := some e, result := none } := by
  simp [tick, hp, phaseInterpret, ho, interpretInfo, hr, hx, State.raise, he, State.goto]

end Sys2Proof.Machine
end

