-- ==== Sys2Proof/Laws/Frame.lean ====
section
/-! SUPPORT. What any phase leaves alone: the configuration, the held requests and the latched Command; the records
only grow and the environment's answers are consumed from the front. -/

namespace Sys2Proof.Machine

/-- What a phase can do, whichever it is. -/
structure Follows (s t : State) : Prop where
  cfg : t.cfg = s.cfg
  held : t.held = s.held
  cmd : t.cmd = s.cmd
  trace : s.trace <+: t.trace
  answers : t.answers <:+ s.answers
  rest : (t.busy = s.busy ∧ t.op = s.op ∧ t.delivered = s.delivered) ∨ (s.phase = .done ∧ t = s.deliver)

/-- A phase that makes no transport call and does not deliver. -/
theorem Follows.of_eq {s t : State} (h1 : t.cfg = s.cfg) (h2 : t.held = s.held) (h3 : t.cmd = s.cmd)
    (h4 : t.trace = s.trace) (h5 : t.answers = s.answers) (h6 : t.busy = s.busy) (h7 : t.op = s.op)
    (h8 : t.delivered = s.delivered) : Follows s t :=
  ⟨h1, h2, h3, by rw [h4], by rw [h5], .inl ⟨h6, h7, h8⟩⟩

theorem Follows.refl (s : State) : Follows s s := .of_eq rfl rfl rfl rfl rfl rfl rfl rfl

/-- Everything the encode step can do when it succeeds. -/
theorem buildFrame_some {s s' : State} (h : s.buildFrame = .ok s') :
    s' = { s.sum (commandHead s.cmd) with txbuf := commandHead s.cmd ++ checksum (commandHead s.cmd) } := by
  by_cases hl : s.cmd.payload.length ≤ 248
  · rw [buildFrame_of_fits hl] at h; cases h; rfl
  · rw [buildFrame_of_long (by omega)] at h; cases h

theorem sumReply_follows (s : State) (b : List Byte) : Follows s (s.sumReply b) := by
  unfold State.sumReply; split
  · exact .refl s
  · exact .of_eq rfl rfl rfl rfl rfl rfl rfl rfl

theorem raise_follows (s : State) (e : Error) : Follows s (s.raise e) := by
  unfold State.raise; split
  · exact .of_eq rfl rfl rfl rfl rfl rfl rfl rfl
  · exact .refl s

/-- Every phase, in every state. -/
theorem tick_follows (s : State) : Follows s (tick s) := by
  unfold tick
  split
  case h_1 => exact .refl s
  case h_15 h => exact ⟨rfl, rfl, rfl, by simp, by simp, .inr ⟨h, rfl⟩⟩
  case h_2 =>
    unfold phaseCheck checkChecksum checkEncode checkDecode checkClassify checkCommand
    split
    all_goals (try split)
    all_goals (try split)
    all_goals (try rename_i hh; obtain rfl := buildFrame_some hh)
    all_goals (refine .of_eq ?_ ?_ ?_ ?_ ?_ ?_ ?_ ?_ <;> simp)
  case h_6 =>
    unfold phaseEncode
    split
    · exact .of_eq rfl rfl rfl rfl rfl rfl rfl rfl
    split
    · refine .of_eq ?_ ?_ ?_ ?_ ?_ ?_ ?_ ?_ <;> simp
    · rename_i hh; obtain rfl := buildFrame_some hh
      exact .of_eq rfl rfl rfl rfl rfl rfl rfl rfl
  case h_12 =>
    unfold phaseInterpret interpretSelftest interpretInfo
    split
    all_goals (try split)
    all_goals (try split)
    all_goals (refine .of_eq ?_ ?_ ?_ ?_ ?_ ?_ ?_ ?_ <;> simp)
  case h_11 =>
    unfold phaseDecode
    simp only []
    split <;> (refine .of_eq ?_ ?_ ?_ ?_ ?_ ?_ ?_ ?_ <;> simp)
  case h_4 => exact ⟨rfl, rfl, rfl, by simp [phaseWakeSettle], by simp [phaseWakeSettle], .inl ⟨rfl, rfl, rfl⟩⟩
  case h_8 => exact ⟨rfl, rfl, rfl, by simp [phaseExecWait], by simp [phaseExecWait], .inl ⟨rfl, rfl, rfl⟩⟩
  case h_3 =>
    unfold phaseWakeWrite
    split
    · exact .refl s
    · rename_i hh; obtain ⟨a, rest, ha, -, rfl⟩ := busWrite_some hh
      exact ⟨rfl, rfl, rfl, by simp, by simp [ha], .inl ⟨rfl, rfl, rfl⟩⟩
  case h_7 =>
    unfold phaseCmdWrite
    split
    · exact .refl s
    all_goals
      rename_i hh; obtain ⟨a, rest, ha, -, rfl⟩ := busWrite_some hh
      exact ⟨by simp, by simp, by simp, by simp, by simp [ha], .inl (by simp)⟩
  case h_5 =>
    unfold phaseWakeRead
    split
    · exact .refl s
    · rename_i hh; obtain ⟨a, rest, ha, -, rfl⟩ := busRead_some hh
      refine ⟨by simp [State.wakeFails], by simp [State.wakeFails], by simp [State.wakeFails],
        by simp [State.wakeFails], by simp [ha, State.wakeFails], .inl (by simp [State.wakeFails])⟩
    · rename_i hh; obtain ⟨a, rest, ha, -, rfl⟩ := busRead_some hh
      simp only []
      split
      · exact ⟨by simp [State.wakeSucceeds], by simp [State.wakeSucceeds], by simp [State.wakeSucceeds],
          by simp [State.wakeSucceeds], by simp [ha, State.wakeSucceeds], .inl (by simp [State.wakeSucceeds])⟩
      · exact ⟨by simp [State.wakeFails], by simp [State.wakeFails], by simp [State.wakeFails],
        by simp [State.wakeFails], by simp [ha, State.wakeFails], .inl (by simp [State.wakeFails])⟩
  case h_9 =>
    unfold phaseReadLen
    split
    · exact .refl s
    all_goals
      rename_i hh; obtain ⟨a, rest, ha, -, rfl⟩ := busRead_some hh
      exact ⟨by simp, by simp, by simp, by simp, by simp [ha], .inl (by simp)⟩
  case h_10 =>
    unfold phaseReadBody
    split
    · exact .of_eq rfl rfl rfl rfl rfl rfl rfl rfl
    split
    · exact .refl s
    all_goals
      rename_i hh; obtain ⟨a, rest, ha, -, rfl⟩ := busRead_some hh
      exact ⟨by simp, by simp, by simp, by simp, by simp [ha], .inl (by simp)⟩
  case h_13 =>
    unfold phaseCleanup
    split
    · exact .refl s
    · rename_i hh; obtain ⟨a, rest, ha, -, rfl⟩ := powerDown_some hh
      exact ⟨by simp, by simp, by simp, by simp, by simp [ha], .inl (by simp)⟩
  case h_14 =>
    unfold phasePowerWrite
    split
    · exact .refl s
    all_goals
      rename_i hh; obtain ⟨a, rest, ha, -, rfl⟩ := powerDown_some hh
      exact ⟨by simp, by simp, by simp, by simp, by simp [ha], .inl (by simp)⟩

end Sys2Proof.Machine
end

