-- ==== Sys2Proof/Laws/PerInstr.lean ====
section
/-! SUPPORT. Statements made per instruction: the decoder reads back what the encoder wrote, with every operand. -/

namespace Sys2Proof.Laws.RoundTrip

/-- Decoding the encoding of an instruction gives it back. -/
def Statement (i : Instr) : Prop := Sys2Proof.decode (Sys2Proof.encode i) = .ok i

theorem checksum (bytes : List Byte) : Statement (.checksum bytes) := rfl

theorem encode (opcode param1 : Byte) (param2 : Byte × Byte) (payload : List Byte) :
    Statement (.encode opcode param1 param2 payload) := rfl

theorem decode (bytes : List Byte) : Statement (.decode bytes) := rfl

theorem classify (code : Byte) : Statement (.classify code) := rfl

theorem wake : Statement .wake := rfl

theorem idle : Statement .idle := rfl

theorem sleep : Statement .sleep := rfl

theorem execute (opcode param1 : Byte) (param2 : Byte × Byte) (payload : List Byte) (autoWake : Bool) :
    Statement (.execute opcode param1 param2 payload autoWake) := rfl

theorem selftest : Statement .selftest := rfl

theorem info : Statement .info := rfl

theorem selftestFrame (opcode crcLo crcHi : Byte) : Statement (.selftestFrame opcode crcLo crcHi) := rfl

theorem infoFrame (opcode crcLo crcHi : Byte) : Statement (.infoFrame opcode crcLo crcHi) := rfl

end Sys2Proof.Laws.RoundTrip
end

