-- ==== Sys2Proof/Laws/Resume.lean ====
section
/-! SUPPORT. What comes from outside while an operation is in flight, further answers and other held requests: a phase
either does not notice it, or waits for the first of these answers (R42, R205). -/

namespace Sys2Proof.Machine

/-- The state with further answers of the environment behind those at hand, and with other held requests. -/
def State.withInputs (s : State) (late : List Answer) (held : List PortWord) : State :=
  { s with answers := s.answers ++ late, held := held }

variable (s : State) (late : List Answer) (held : List PortWord)

@[simp] theorem withInputs_phase : (s.withInputs late held).phase = s.phase := rfl

@[simp] theorem withInputs_op : (s.withInputs late held).op = s.op := rfl

@[simp] theorem withInputs_cmd : (s.withInputs late held).cmd = s.cmd := rfl

@[simp] theorem withInputs_cfg : (s.withInputs late held).cfg = s.cfg := rfl

@[simp] theorem withInputs_session : (s.withInputs late held).session = s.session := rfl

@[simp] theorem withInputs_err : (s.withInputs late held).err = s.err := rfl

@[simp] theorem withInputs_result : (s.withInputs late held).result = s.result := rfl

@[simp] theorem withInputs_txbuf : (s.withInputs late held).txbuf = s.txbuf := rfl

@[simp] theorem withInputs_rxlen : (s.withInputs late held).rxlen = s.rxlen := rfl

@[simp] theorem withInputs_rxbuf : (s.withInputs late held).rxbuf = s.rxbuf := rfl

@[simp] theorem withInputs_draws : (s.withInputs late held).draws = s.draws := rfl

@[simp] theorem withInputs_busy : (s.withInputs late held).busy = s.busy := rfl

@[simp] theorem withInputs_acc : (s.withInputs late held).acc = s.acc := rfl

@[simp] theorem withInputs_trace : (s.withInputs late held).trace = s.trace := rfl

@[simp] theorem withInputs_delivered : (s.withInputs late held).delivered = s.delivered := rfl

@[simp] theorem withInputs_held : (s.withInputs late held).held = held := rfl

@[simp] theorem withInputs_answers : (s.withInputs late held).answers = s.answers ++ late := rfl

/-! ### Every shared operation but a waiting transport call commutes with it -/

@[simp] theorem withInputs_goto (p : Phase) :
    (s.withInputs late held).goto p = (s.goto p).withInputs late held := rfl

@[simp] theorem withInputs_leaveBody : (s.withInputs late held).leaveBody = s.leaveBody.withInputs late held := rfl

@[simp] theorem withInputs_deliver : (s.withInputs late held).deliver = s.deliver.withInputs late held := rfl

@[simp] theorem withInputs_raise (e : Error) :
    (s.withInputs late held).raise e = (s.raise e).withInputs late held := by
  unfold State.raise; cases h : s.err <;> simp [State.withInputs, h]

@[simp] theorem withInputs_sumReply (b : List Byte) :
    (s.withInputs late held).sumReply b = (s.sumReply b).withInputs late held := by
  unfold State.sumReply; split <;> rfl

@[simp] theorem withInputs_wakeFails (e : Error) :
    (s.withInputs late held).wakeFails e = (s.wakeFails e).withInputs late held :=
  congrArg (State.goto · _) (withInputs_raise { s with session := .faulted } late held e)

@[simp] theorem withInputs_wakeSucceeds :
    (s.withInputs late held).wakeSucceeds = s.wakeSucceeds.withInputs late held := rfl

theorem withInputs_buildFrame :
    (s.withInputs late held).buildFrame = s.buildFrame.map (State.withInputs · late held) := by
  unfold State.buildFrame
  cases h : encodeCommand s.cmd <;> simp [h] <;> rfl

section
variable {s}

theorem withInputs_busWrite (h : s.answers ≠ []) (t : Target) (bytes : List Byte) :
    (s.withInputs late held).busWrite t bytes =
      (s.busWrite t bytes).map (fun x => (x.1, x.2.withInputs late held)) := by
  cases ha : s.answers with
  | nil => exact absurd ha h
  | cons a rest => simp [State.busWrite, ha]; rfl

theorem withInputs_busRead (h : s.answers ≠ []) (t : Target) (n : Nat) :
    (s.withInputs late held).busRead t n =
      (s.busRead t n).map (fun x => (x.1, x.2.withInputs late held)) := by
  cases ha : s.answers with
  | nil => exact absurd ha h
  | cons a rest => simp [State.busRead, ha]; rfl

theorem withInputs_powerDown (h : s.answers ≠ []) (t : Target) :
    (s.withInputs late held).powerDown t =
      (s.powerDown t).map (fun x => (x.1, x.2.withInputs late held)) := by
  unfold State.powerDown
  rw [withInputs_busWrite late held h]
  cases s.busWrite t [] <;> rfl

end

/-! ### The phases that make no transport call -/

theorem checkEncode_withInputs :
    checkEncode (s.withInputs late held) = (checkEncode s).withInputs late held := by
  unfold checkEncode
  rw [withInputs_buildFrame]
  cases s.buildFrame with
  | error e => simp [Except.map]
  | ok s' => rfl

theorem checkDecode_withInputs (bytes : List Byte) :
    checkDecode bytes (s.withInputs late held) = (checkDecode bytes s).withInputs late held := by
  unfold checkDecode
  split <;> rw [withInputs_sumReply]
  · rw [withInputs_raise, withInputs_goto]
  · rfl

theorem checkCommand_withInputs :
    checkCommand (s.withInputs late held) = (checkCommand s).withInputs late held := by
  unfold checkCommand
  simp only [withInputs_cmd, withInputs_session, withInputs_raise, withInputs_goto]
  split <;> (try split) <;> rfl

theorem phaseCheck_withInputs :
    phaseCheck (s.withInputs late held) = (phaseCheck s).withInputs late held := by
  unfold phaseCheck
  simp only [withInputs_op, withInputs_raise, withInputs_goto, checkEncode_withInputs, checkDecode_withInputs,
    checkCommand_withInputs]
  split <;> rfl

theorem phaseEncode_withInputs :
    phaseEncode (s.withInputs late held) = (phaseEncode s).withInputs late held := by
  unfold phaseEncode
  rw [withInputs_op, withInputs_buildFrame]
  split
  · rfl
  · cases s.buildFrame with
    | error e => simp [Except.map]
    | ok s' => rfl

theorem phaseDecode_withInputs :
    phaseDecode (s.withInputs late held) = (phaseDecode s).withInputs late held := by
  unfold phaseDecode
  simp only [withInputs_rxbuf, withInputs_sumReply]
  split
  · rw [withInputs_raise, withInputs_leaveBody]
  · rfl

theorem phaseInterpret_withInputs :
    phaseInterpret (s.withInputs late held) = (phaseInterpret s).withInputs late held := by
  unfold phaseInterpret interpretSelftest interpretInfo
  simp only [withInputs_op, withInputs_result, withInputs_raise]
  split <;> (try split) <;> (try split) <;> rfl

/-! ### The phases that make one, with an answer at hand -/

section
variable {s}

theorem phaseWakeWrite_withInputs (h : s.answers ≠ []) :
    phaseWakeWrite (s.withInputs late held) = (phaseWakeWrite s).withInputs late held := by
  unfold phaseWakeWrite
  rw [withInputs_cfg, withInputs_busWrite late held h]
  obtain ⟨a, rest, ha⟩ := List.exists_cons_of_ne_nil h
  rw [busWrite_cons ha]; rfl

theorem phaseWakeRead_withInputs (h : s.answers ≠ []) :
    phaseWakeRead (s.withInputs late held) = (phaseWakeRead s).withInputs late held := by
  unfold phaseWakeRead
  rw [withInputs_cfg, withInputs_busRead late held h]
  obtain ⟨a, rest, ha⟩ := List.exists_cons_of_ne_nil h
  obtain ⟨o, s', hx⟩ : ∃ o s', s.busRead s.cfg.cmdTarget 4 = some (o, s') := ⟨_, _, busRead_cons ha _ _⟩
  rw [hx]
  cases o with
  | failed e => exact withInputs_wakeFails s' late held _
  | got reply =>
    have hs := withInputs_sumReply { s' with rxbuf := reply } late held reply
    simp only [Option.map_some]
    split
    · exact congrArg State.wakeSucceeds hs
    · exact (congrArg (State.wakeFails · _) hs).trans (withInputs_wakeFails ..)

theorem phaseCmdWrite_withInputs (h : s.answers ≠ []) :
    phaseCmdWrite (s.withInputs late held) = (phaseCmdWrite s).withInputs late held := by
  unfold phaseCmdWrite
  rw [withInputs_cfg, withInputs_txbuf, withInputs_busWrite late held h]
  obtain ⟨a, rest, ha⟩ := List.exists_cons_of_ne_nil h
  rw [busWrite_cons ha]
  cases a.failure with
  | none => rfl
  | some e => exact congrArg State.leaveBody (withInputs_raise _ late held _)

theorem phaseReadLen_withInputs (h : s.answers ≠ []) :
    phaseReadLen (s.withInputs late held) = (phaseReadLen s).withInputs late held := by
  unfold phaseReadLen
  rw [withInputs_cfg, withInputs_busRead late held h]
  obtain ⟨a, rest, ha⟩ := List.exists_cons_of_ne_nil h
  rw [busRead_cons ha]
  cases a.outcome 1 s.draws with
  | failed e => exact congrArg State.leaveBody (withInputs_raise _ late held _)
  | got reply => rfl

theorem phaseReadBody_withInputs (h : s.answers ≠ [] ∨ bodyReadLength s.cfg.rxMode s.rxlen = none) :
    phaseReadBody (s.withInputs late held) = (phaseReadBody s).withInputs late held := by
  unfold phaseReadBody
  rw [withInputs_cfg, withInputs_rxlen]
  cases hn : bodyReadLength s.cfg.rxMode s.rxlen with
  | none => rfl
  | some n =>
    replace h := h.resolve_right (by simp [hn])
    simp only [withInputs_busRead late held h]
    obtain ⟨a, rest, ha⟩ := List.exists_cons_of_ne_nil h
    rw [busRead_cons ha]
    cases a.outcome n s.draws with
    | failed e => exact congrArg State.leaveBody (withInputs_raise _ late held _)
    | got reply => rfl

theorem phaseCleanup_withInputs (h : s.answers ≠ []) :
    phaseCleanup (s.withInputs late held) = (phaseCleanup s).withInputs late held := by
  unfold phaseCleanup
  rw [withInputs_cfg, withInputs_powerDown late held h, withInputs_op, withInputs_err]
  cases s.powerDown s.cfg.idleTarget with
  | none => rfl
  | some x => rfl

theorem phasePowerWrite_withInputs (h : s.answers ≠ []) :
    phasePowerWrite (s.withInputs late held) = (phasePowerWrite s).withInputs late held := by
  unfold phasePowerWrite
  rw [withInputs_cfg, withInputs_op, withInputs_powerDown late held h]
  rcases s.powerDown (if s.op = some Instr.sleep then s.cfg.sleepTarget else s.cfg.idleTarget) with _ | ⟨_ | e, s'⟩
  · rfl
  · rfl
  · exact congrArg (State.goto · _) (withInputs_raise s' late held _)

end

/-- A phase does not notice what is behind the answers at hand, unless it waits for the first of them. -/
theorem tick_withInputs :
    tick (s.withInputs late held) = (tick s).withInputs late held ∨
      (tick s = s ∧ s.answers = [] ∧ s.phase ∈ transportPhases) := by
  unfold tick
  rw [withInputs_phase]
  by_cases ha : s.answers = []
  · cases hp : s.phase
    case readBody =>
      cases hn : bodyReadLength s.cfg.rxMode s.rxlen with
      | none => exact .inl (phaseReadBody_withInputs late held (.inr hn))
      | some n => exact .inr ⟨by simp [phaseReadBody, hn, busRead_nil ha], ha, by decide⟩
    case check => exact .inl (phaseCheck_withInputs ..)
    case encode => exact .inl (phaseEncode_withInputs ..)
    case decode => exact .inl (phaseDecode_withInputs ..)
    case interpret => exact .inl (phaseInterpret_withInputs ..)
    case idle => exact .inl rfl
    case wakeSettle => exact .inl rfl
    case execWait => exact .inl rfl
    case done => exact .inl rfl
    case wakeWrite => exact .inr ⟨by simp [phaseWakeWrite, busWrite_nil ha], ha, by decide⟩
    case wakeRead => exact .inr ⟨by simp [phaseWakeRead, busRead_nil ha], ha, by decide⟩
    case cmdWrite => exact .inr ⟨by simp [phaseCmdWrite, busWrite_nil ha], ha, by decide⟩
    case readLen => exact .inr ⟨by simp [phaseReadLen, busRead_nil ha], ha, by decide⟩
    case cleanup => exact .inr ⟨by simp [phaseCleanup, State.powerDown, busWrite_nil ha], ha, by decide⟩
    case powerWrite => exact .inr ⟨by simp [phasePowerWrite, State.powerDown, busWrite_nil ha], ha, by decide⟩
  · left
    cases s.phase
    case check => exact phaseCheck_withInputs ..
    case encode => exact phaseEncode_withInputs ..
    case decode => exact phaseDecode_withInputs ..
    case interpret => exact phaseInterpret_withInputs ..
    case wakeWrite => exact phaseWakeWrite_withInputs late held ha
    case wakeRead => exact phaseWakeRead_withInputs late held ha
    case cmdWrite => exact phaseCmdWrite_withInputs late held ha
    case readLen => exact phaseReadLen_withInputs late held ha
    case readBody => exact phaseReadBody_withInputs late held (.inl ha)
    case cleanup => exact phaseCleanup_withInputs late held ha
    case powerWrite => exact phasePowerWrite_withInputs late held ha
    all_goals rfl

/-- Any number of phases: until one waits, further answers and other held requests make no difference; from there on
the operation stands where they find it. -/
theorem ticks_withInputs (n : Nat) :
    ticks n (s.withInputs late held) = (ticks n s).withInputs late held ∨
      ∃ k ≤ n, ticks k (s.withInputs late held) = (ticks n s).withInputs late held ∧
        tick (ticks n s) = ticks n s ∧ (ticks n s).answers = [] ∧ (ticks n s).phase ∈ transportPhases := by
  induction n generalizing s with
  | zero => exact .inl rfl
  | succ n ih =>
    rw [ticks_succ, ticks_succ]
    rcases tick_withInputs s late held with h | ⟨h, ha, hp⟩
    · rw [h]
      rcases ih (tick s) with h' | ⟨k, hk, h'⟩
      · exact .inl h'
      · exact .inr ⟨k + 1, by omega, by rw [ticks_succ, h]; exact h'⟩
    · rw [h, ticks_fixed h]
      exact .inr ⟨0, by omega, rfl, h, ha, hp⟩

end Sys2Proof.Machine
end

