-- ==== Sys2Proof/Laws/Stages.lean ====
section
/-! SUPPORT. The stages of an operation against the pseudocode of Machine/Reference.lean: the wake handshake, the
command exchange, the cleanup, and the whole command up to its delivery. -/

namespace Sys2Proof.Machine

/-- What no stage of an operation changes before delivery. -/
structure KeepsRequest (s t : State) : Prop where
  cfg : t.cfg = s.cfg
  op : t.op = s.op
  cmd : t.cmd = s.cmd
  held : t.held = s.held
  delivered : t.delivered = s.delivered
  busy : t.busy = s.busy

/-- `t` is where a piece of the body that began in `s` ends, as the pseudocode `r` says; it goes to phase `ph`. -/
def ExchangeEnd (s t : State) (base : List Event) (r : Ran (List Byte)) (ph : Phase) : Prop :=
  KeepsRequest s t ∧ match r with
  | .hung w => tick t = t ∧ t.phase ∈ transportPhases ∧ t.trace = base ++ w.events ∧
      t.answers = w.answers ∧ t.draws = w.draws ∧ t.session = w.session
  | .raised e w => t.phase = ph ∧ t.err = some e ∧ t.result = none ∧ t.trace = base ++ w.events ∧
      t.answers = w.answers ∧ t.draws = w.draws ∧ t.session = w.session
  | .returned d w => t.phase = ph ∧ t.err = none ∧ t.result = some (.bytes d) ∧ t.trace = base ++ w.events ∧
      t.answers = w.answers ∧ t.draws = w.draws ∧ t.session = w.session

/-- The last lines of the pseudocode, as the sequencer computes them. -/
theorem refDecode_eq (f : List Byte)
    (w : World) : refDecode f w = match replyValue f with | .error e => .raised e w | .ok d => .returned d w := by
  unfold replyValue refDecode
  cases decodeReply f with
  | error e => rfl
  | ok d =>
    obtain ⟨data, st⟩ := d
    cases st with
    | none => rfl
    | some c => cases h : statusOutcome c false <;> simp [h]

/-- The command exchange, phase by phase, does what its pseudocode says (R134 to R138). -/
theorem exchange_stage {s : State} (base evs) (hp : s.phase = .encode) (hr : s.op.bind readyFrame = none)
    (hl : s.cmd.payload.length ≤ 248)
   (he : s.err = none) (hres : s.result = none) (ht : s.trace = base ++ evs) :
   ∃ n ≤ 6, ExchangeEnd s (ticks n s) base (refExchange s.cfg s.cmd ⟨s.session, s.answers, s.draws, evs⟩)
       (bodyExit s.cmd.autoWake) := by
  have e1 := tick_encode hp hr hl
  cases ha : s.answers with
  | nil =>
    refine ⟨1, by omega, ?_⟩
    simp only [ticks_succ, ticks_zero, e1, refExchange, refWrite, ha, Ran.andThen, ExchangeEnd]
    exact ⟨⟨rfl, rfl, rfl, rfl, rfl, rfl⟩, tick_cmdWrite_nil rfl rfl, by simp [transportPhases, ht]⟩
  | cons a1 r1 =>
  cases hk : a1.failure with
  | some e =>
    refine ⟨2, by omega, ?_⟩
    rw [ticks_succ, e1, ticks_succ, tick_cmdWrite_failed (a := a1) (rest := r1) (e := e) ?_ ?_ ?_ ?_]
    all_goals try first | rfl | assumption
    simp only [ticks_zero, refExchange, refWrite, hk, Ran.andThen, ExchangeEnd, World.record]
    exact ⟨⟨rfl, rfl, rfl, rfl, rfl, rfl⟩, by simp [ht, locate]⟩
  | none =>
  cases hr1 : r1 with
  | nil =>
    refine ⟨3, by omega, ?_⟩
    rw [ticks_succ, e1, ticks_succ, tick_cmdWrite_ok (a := a1) (rest := ([])) ?_ ?_ ?_, ticks_succ,
      tick_execWait ?_]
    all_goals try first | rfl | assumption | (subst hr1; exact ha)
    subst hr1
    simp only [ticks_zero, refExchange, refWrite, hk, Ran.andThen, ExchangeEnd, World.record, refRead]
    exact ⟨⟨rfl, rfl, rfl, rfl, rfl, rfl⟩, tick_readLen_nil rfl rfl, by simp [transportPhases, ht, locate]⟩
  | cons a2 r2 =>
  subst hr1
  cases ho : a2.outcome 1 s.draws with
  | failed e =>
    refine ⟨4, by omega, ?_⟩
    rw [ticks_succ, e1, ticks_succ, tick_cmdWrite_ok (a := a1) (rest := _) ?_ ?_ ?_, ticks_succ, tick_execWait ?_,
      ticks_succ, tick_readLen_failed (a := a2) (rest := r2) (e := e) ?_ ?_ ?_ ?_]
    all_goals try first | rfl | assumption
    simp only [ticks_zero, refExchange, refWrite, hk, Ran.andThen, ExchangeEnd, World.record, refRead, ho]
    exact ⟨⟨rfl, rfl, rfl, rfl, rfl, rfl⟩, by simp [ht, locate, State.afterReply, ho]⟩
  | got b1 =>
  cases hn : bodyReadLength s.cfg.rxMode (b1.headD 0) with
  | none =>
    cases hv : replyValue (replyFrame s.cfg.rxMode (b1.headD 0) []) with
    | error e =>
      refine ⟨6, by omega, ?_⟩
      rw [ticks_succ, e1, ticks_succ, tick_cmdWrite_ok (a := a1) (rest := _) ?_ ?_ ?_, ticks_succ,
        tick_execWait ?_, ticks_succ, tick_readLen_got (a := a2) (rest := r2) (r := b1) ?_ ?_ ?_, ticks_succ,
        tick_readBody_none ?_ ?_, ticks_succ, tick_decode_error (e := e) ?_ ?_ ?_]
      all_goals try first | rfl | assumption
      simp only [ticks_zero, refExchange, refWrite, hk, Ran.andThen, ExchangeEnd, World.record, refRead, ho, hn]
      simp only [refDecode_eq, hv]
      exact ⟨by constructor <;> simp [State.afterReply], by simp [State.afterReply, locate, *]⟩
    | ok d =>
      refine ⟨6, by omega, ?_⟩
      rw [ticks_succ, e1, ticks_succ, tick_cmdWrite_ok (a := a1) (rest := _) ?_ ?_ ?_, ticks_succ,
        tick_execWait ?_, ticks_succ, tick_readLen_got (a := a2) (rest := r2) (r := b1) ?_ ?_ ?_, ticks_succ,
        tick_readBody_none ?_ ?_, ticks_succ, tick_decode_ok (data := d) ?_ ?_]
      all_goals try first | rfl | assumption
      simp only [ticks_zero, refExchange, refWrite, hk, Ran.andThen, ExchangeEnd, World.record, refRead, ho, hn]
      simp only [refDecode_eq, hv]
      exact ⟨by constructor <;> simp [State.afterReply], by simp [State.afterReply, locate, *]⟩
  | some n =>
  cases hr2 : r2 with
  | nil =>
    subst hr2
    refine ⟨4, by omega, ?_⟩
    rw [ticks_succ, e1, ticks_succ, tick_cmdWrite_ok (a := a1) (rest := _) ?_ ?_ ?_, ticks_succ, tick_execWait ?_,
      ticks_succ, tick_readLen_got (a := a2) (rest := []) (r := b1) ?_ ?_ ?_]
    all_goals try first | rfl | assumption
    simp only [ticks_zero, refExchange, refWrite, hk, Ran.andThen, ExchangeEnd, World.record, refRead, ho, hn]
    exact ⟨⟨rfl, rfl, rfl, rfl, rfl, rfl⟩, tick_readBody_nil rfl hn rfl,
      by simp [transportPhases, ht, locate, State.afterReply, ho]⟩
  | cons a3 r3 =>
  subst hr2
  cases ho3 : a3.outcome n (s.draws + a2.drawn 1) with
  | failed e =>
    refine ⟨5, by omega, ?_⟩
    rw [ticks_succ, e1, ticks_succ, tick_cmdWrite_ok (a := a1) (rest := (a2 :: a3 :: r3)) ?_ ?_ ?_, ticks_succ,
      tick_execWait ?_, ticks_succ, tick_readLen_got (a := a2) (rest := (a3 :: r3)) (r := b1) ?_ ?_ ?_, ticks_succ,
      tick_readBody_failed (a := a3) (rest := r3) (n := n) (e := e) ?_ ?_ ?_ ?_ ?_]
    all_goals try first | rfl | assumption
    simp only [ticks_zero, refExchange, refWrite, hk, Ran.andThen, ExchangeEnd, World.record, refRead, ho, hn,
      ho3]
    exact ⟨⟨rfl, rfl, rfl, rfl, rfl, rfl⟩, by simp [ht, locate, State.afterReply, ho, ho3]⟩
  | got b3 =>
    cases hv : replyValue (replyFrame s.cfg.rxMode (b1.headD 0) b3) with
    | error e =>
      refine ⟨6, by omega, ?_⟩
      rw [ticks_succ, e1, ticks_succ, tick_cmdWrite_ok (a := a1) (rest := (a2 :: a3 :: r3)) ?_ ?_ ?_, ticks_succ,
        tick_execWait ?_, ticks_succ, tick_readLen_got (a := a2) (rest := (a3 :: r3)) (r := b1) ?_ ?_ ?_,
        ticks_succ, tick_readBody_got (a := a3) (rest := r3) (n := n) (r := b3) ?_ ?_ ?_ ?_, ticks_succ,
        tick_decode_error (e := e) ?_ ?_ ?_]
      all_goals try first | rfl | assumption
      simp only [ticks_zero, refExchange, refWrite, hk, Ran.andThen, ExchangeEnd, World.record, refRead, ho,
        hn, ho3]
      simp only [refDecode_eq, hv]
      exact ⟨by constructor <;> simp [State.afterReply], by simp [State.afterReply, locate, *]⟩
    | ok d =>
      refine ⟨6, by omega, ?_⟩
      rw [ticks_succ, e1, ticks_succ, tick_cmdWrite_ok (a := a1) (rest := (a2 :: a3 :: r3)) ?_ ?_ ?_, ticks_succ,
        tick_execWait ?_, ticks_succ, tick_readLen_got (a := a2) (rest := (a3 :: r3)) (r := b1) ?_ ?_ ?_,
        ticks_succ, tick_readBody_got (a := a3) (rest := r3) (n := n) (r := b3) ?_ ?_ ?_ ?_, ticks_succ,
        tick_decode_ok (data := d) ?_ ?_]
      all_goals try first | rfl | assumption
      simp only [ticks_zero, refExchange, refWrite, hk, Ran.andThen, ExchangeEnd, World.record, refRead, ho,
        hn, ho3]
      simp only [refDecode_eq, hv]
      exact ⟨by constructor <;> simp [State.afterReply], by simp [State.afterReply, locate, *]⟩

/-- The same for the wake handshake, which goes to `pOk` or `pBad`. -/
def WakeEnd (s t : State) (base : List Event) (r : Ran Unit) (pOk pBad : Phase) : Prop :=
  KeepsRequest s t ∧ match r with
  | .hung w => tick t = t ∧ t.phase ∈ transportPhases ∧ t.trace = base ++ w.events ∧
      t.answers = w.answers ∧ t.draws = w.draws ∧ t.session = w.session
  | .raised e w => t.phase = pBad ∧ t.err = some e ∧ t.result = none ∧ t.trace = base ++ w.events ∧
      t.answers = w.answers ∧ t.draws = w.draws ∧ t.session = w.session ∧ t.session = .faulted
  | .returned _ w => t.phase = pOk ∧ t.err = none ∧ t.result = none ∧ t.trace = base ++ w.events ∧
      t.answers = w.answers ∧ t.draws = w.draws ∧ t.session = w.session ∧ t.session = .awake

/-- The pseudocode of the wake verdict and `wakeReplyGood` agree (R114, R115). -/
theorem refJudgeWake_eq (r : List Byte)
    (w : World) : refJudgeWake r w = if wakeReplyGood r then .returned () { w with session := .awake } else .raised
    .wakeFailed { w with session := .faulted } := by
  unfold wakeReplyGood refJudgeWake
  cases hd : decodeReply r with
  | error e => simp
  | ok d =>
    obtain ⟨data, st⟩ := d
    cases st with
    | none => simp
    | some c =>
      simp only [Option.some.injEq]
      unfold statusOutcome
      by_cases h0 : c = 0
      · simp [h0]
      · by_cases h1 : c = 0x11
        · simp [h1]
        · have h0' : ¬ c = 0#8 := h0
          have h1' : ¬ c = 17#8 := h1
          by_cases hk : (classify c).known = true <;> simp [hk, h0', h1']

/-- The wake handshake does what its pseudocode says (R111). -/
theorem wake_stage {s : State} (base evs) (hp : s.phase = .wakeWrite)
   (he : s.err = none) (hres : s.result = none) (ht : s.trace = base ++ evs) :
   ∃ n ≤ 3, WakeEnd s (ticks n s) base (refWake s.cfg ⟨s.session, s.answers, s.draws, evs⟩)
       (if s.op = some .wake then .done else .encode) (if s.op = some .wake then .done else .cleanup) := by
  cases ha : s.answers with
  | nil =>
    refine ⟨0, by omega, ?_⟩
    simp only [ticks_zero, refWake, refWrite, Ran.ignored, Ran.andThen, WakeEnd]
    exact ⟨⟨rfl, rfl, rfl, rfl, rfl, rfl⟩, tick_wakeWrite_nil hp ha, by simp [transportPhases, hp, ht, ha]⟩
  | cons a1 r1 =>
  have e1 := tick_wakeWrite hp ha
  have hW : ∀ w : World, w.answers = a1 :: r1 → (refWrite s.cfg s.cfg.wakeTarget [] w).ignored = .returned ()
      ({ w with answers := r1 }.record (.write ⟨s.cfg.busId, s.cfg.wakeTarget.address,
      s.cfg.wakeTarget.register⟩ [] a1.failure)) := by
    intro w hw
    simp only [refWrite, hw]
    cases hf : a1.failure <;> simp [Ran.ignored]
  cases r1 with
  | nil =>
    refine ⟨2, by omega, ?_⟩
    rw [ticks_succ, e1, ticks_succ, tick_wakeSettle ?_]
    all_goals try first | rfl | assumption
    simp only [ticks_zero, refWake, hW, Ran.andThen, WakeEnd, World.record, refRead]
    exact ⟨⟨rfl, rfl, rfl, rfl, rfl, rfl⟩, tick_wakeRead_nil rfl rfl, by simp [transportPhases, ht, locate]⟩
  | cons a2 r2 =>
  cases ho : a2.outcome 4 s.draws with
  | failed e =>
    refine ⟨3, by omega, ?_⟩
    rw [ticks_succ, e1, ticks_succ, tick_wakeSettle ?_, ticks_succ, tick_wakeRead_failed (a := a2) (rest := r2)
      (e := e) ?_ ?_ ?_ ?_]
    all_goals try first | rfl | assumption
    simp only [ticks_zero, refWake, hW, Ran.andThen, WakeEnd, World.record, refRead, ho]
    exact ⟨⟨rfl, rfl, rfl, rfl, rfl, rfl⟩, by simp [ht, locate, State.afterWakeRead, ho]⟩
  | got r =>
    have hr := outcome_got_length ho
    cases hg : wakeReplyGood r with
    | true =>
      refine ⟨3, by omega, ?_⟩
      rw [ticks_succ, e1, ticks_succ, tick_wakeSettle ?_, ticks_succ, tick_wakeRead_good (a := a2) (rest := r2)
        (r := r) ?_ ?_ ?_ ?_]
      all_goals try first | rfl | assumption
      simp only [ticks_zero, refWake, hW, Ran.andThen, WakeEnd, World.record, refRead, ho, refJudgeWake_eq, hg]
      exact ⟨⟨rfl, rfl, rfl, rfl, rfl, rfl⟩, by simp [ht, locate, State.afterWakeRead, ho, he, hres]⟩
    | false =>
      refine ⟨3, by omega, ?_⟩
      rw [ticks_succ, e1, ticks_succ, tick_wakeSettle ?_, ticks_succ, tick_wakeRead_bad (a := a2) (rest := r2)
        (r := r) ?_ ?_ ?_ ?_ ?_]
      all_goals try first | rfl | assumption
      simp only [ticks_zero, refWake, hW, Ran.andThen, WakeEnd, World.record, refRead, ho, refJudgeWake_eq, hg]
      exact ⟨⟨rfl, rfl, rfl, rfl, rfl, rfl⟩, by simp [ht, locate, State.afterWakeRead, ho, he, hres]⟩

/-- The same for a whole command, up to its delivery or its interpretation. -/
def CommandEnd (s t : State) (base : List Event) (r : Ran (List Byte)) : Prop :=
  KeepsRequest s t ∧ match r with
  | .hung w => tick t = t ∧ t.phase ∈ transportPhases ∧ t.trace = base ++ w.events ∧
      t.answers = w.answers ∧ t.draws = w.draws ∧ t.session = w.session
  | .raised e w => t.phase = .done ∧ t.err = some e ∧ t.result = none ∧ t.trace = base ++ w.events ∧
      t.answers = w.answers ∧ t.draws = w.draws ∧ t.session = w.session
  | .returned d w => t.phase = (if interprets s.op && s.cmd.autoWake then .interpret else .done) ∧ t.err = none ∧
      t.result = some (.bytes d) ∧ t.trace = base ++ w.events ∧ t.answers = w.answers ∧ t.draws = w.draws ∧
      t.session = w.session

theorem KeepsRequest.trans {s t u : State} (a : KeepsRequest s t) (b : KeepsRequest t u) : KeepsRequest s u :=
  ⟨b.cfg.trans a.cfg, b.op.trans a.op, b.cmd.trans a.cmd, b.held.trans a.held, b.delivered.trans a.delivered,
      b.busy.trans a.busy⟩

theorem KeepsRequest.of_goto {s t : State} {p : Phase} (h : KeepsRequest (s.goto p) t) : KeepsRequest s t :=
    ⟨h.cfg, h.op, h.cmd, h.held, h.delivered, h.busy⟩

/-- The cleanup after a body that has ended (R139). -/
theorem cleanup_stage {s : State} (base) (r : Ran (List Byte)) (s0 : State) (h : ExchangeEnd s0 s base r .cleanup) :
   ∃ n ≤ 1, KeepsRequest s0 (ticks n s) ∧ match r.finally (refPower s0.cfg s0.cfg.idleTarget) with
  | .hung w => tick (ticks n s) = ticks n s ∧ (ticks n s).phase ∈ transportPhases ∧
      (ticks n s).trace = base ++ w.events ∧ (ticks n s).answers = w.answers ∧ (ticks n s).draws = w.draws ∧
      (ticks n s).session = w.session
  | .raised e w => (ticks n s).phase = .done ∧ (ticks n s).err = some e ∧ (ticks n s).result = none ∧
      (ticks n s).trace = base ++ w.events ∧ (ticks n s).answers = w.answers ∧ (ticks n s).draws = w.draws ∧
      (ticks n s).session = w.session
  | .returned d w => (ticks n s).phase = (if interprets s0.op then .interpret else .done) ∧
      (ticks n s).err = none ∧ (ticks n s).result = some (.bytes d) ∧ (ticks n s).trace = base ++ w.events ∧
      (ticks n s).answers = w.answers ∧ (ticks n s).draws = w.draws ∧ (ticks n s).session = w.session := by
  obtain ⟨hk, h⟩ := h
  cases r with
  | hung w =>
    exact ⟨0, by omega, hk, h⟩
  | raised e w =>
    obtain ⟨h1, h2, h3, h4, h5, h6, h7⟩ := h
    cases hw : w.answers with
    | nil =>
      refine ⟨0, by omega, hk, ?_⟩
      simp only [Ran.finally, refPower, refWrite, hw]
      exact ⟨tick_cleanup_nil h1 (h5.trans hw), by simp [transportPhases, h1, h4, h5, hw, h6, h7]⟩
    | cons a rest =>
      refine ⟨1, by omega, ?_⟩
      rw [ticks_succ, ticks_zero, tick_cleanup h1 (h5.trans hw)]
      refine ⟨KeepsRequest.trans hk ⟨rfl, rfl, rfl, rfl, rfl, rfl⟩, ?_⟩
      simp only [Ran.finally, refPower, refWrite, hw]
      cases hf : a.failure <;> simp [h2, h3, h4, h6, World.record, locate, hk.cfg]
  | returned d w =>
    obtain ⟨h1, h2, h3, h4, h5, h6, h7⟩ := h
    cases hw : w.answers with
    | nil =>
      refine ⟨0, by omega, hk, ?_⟩
      simp only [Ran.finally, refPower, refWrite, hw]
      exact ⟨tick_cleanup_nil h1 (h5.trans hw), by simp [transportPhases, h1, h4, h5, hw, h6, h7]⟩
    | cons a rest =>
      refine ⟨1, by omega, ?_⟩
      rw [ticks_succ, ticks_zero, tick_cleanup h1 (h5.trans hw)]
      refine ⟨KeepsRequest.trans hk ⟨rfl, rfl, rfl, rfl, rfl, rfl⟩, ?_⟩
      simp only [Ran.finally, refPower, refWrite, hw]
      cases hf : a.failure <;> simp [h2, h3, h4, h6, World.record, locate, hk.cfg, hk.op]

/-- A whole command from `Check` on does what the pseudocode of EXECUTE says (R140). -/
theorem command_stage {s : State} (hp : s.phase = .check) (hc : isCommand s.op = true)
    (hr : s.op.bind readyFrame = none)
   (he : s.err = none) (hres : s.result = none) :
   ∃ n ≤ 11, CommandEnd s (ticks n s) s.trace (refExecute s.cfg s.cmd ⟨s.session, s.answers, s.draws, []⟩) := by
  have e0 := (tick_check_command hp hc)
  have how : s.op ≠ some .wake := by rintro h; rw [h] at hc; simp [isCommand] at hc
  unfold refExecute
  by_cases hl : s.cmd.payload.length > 248
  · refine ⟨1, by omega, ?_⟩
    rw [ticks_succ, ticks_zero, e0, checkCommand_long hl, if_pos hl, raise_of_no_error he]
    exact ⟨⟨rfl, rfl, rfl, rfl, rfl, rfl⟩, by simp [State.goto]⟩
  rw [if_neg hl]
  have hl' : s.cmd.payload.length ≤ 248 := by omega
  cases hw : s.cmd.autoWake with
  | false =>
    by_cases hs : s.session = .awake
    · rw [if_neg (by simp [hs])]
      have e1 : tick s = s.goto .encode := by rw [e0, checkCommand_awake hl' hw hs]
      obtain ⟨n, hn, hk, h⟩ := exchange_stage (s := s.goto .encode) s.trace [] rfl hr hl' he hres (by simp)
      refine ⟨n + 1, by omega, ?_⟩
      rw [ticks_succ, e1]
      refine ⟨KeepsRequest.of_goto hk, ?_⟩
      simp only [goto_cfg, goto_cmd, goto_session, goto_answers, goto_draws, hw, bodyExit_false] at h
      cases hx : refExchange s.cfg s.cmd ⟨s.session, s.answers, s.draws, []⟩ <;> rw [hx] at h <;> simpa [hw] using h
    · rw [if_pos (by simp [hs])]
      refine ⟨1, by omega, ?_⟩
      rw [ticks_succ, ticks_zero, e0, checkCommand_notAwake hl' hw hs, raise_of_no_error he]
      exact ⟨⟨rfl, rfl, rfl, rfl, rfl, rfl⟩, by simp [State.goto]⟩
  | true =>
    rw [if_neg (by simp)]
    have e1 : tick s = s.goto .wakeWrite := by rw [e0, checkCommand_wake hl' hw]
    obtain ⟨n, hn, hk, h⟩ := wake_stage (s := s.goto .wakeWrite) s.trace [] rfl he hres (by simp)
    simp only [goto_cfg, goto_session, goto_answers, goto_draws, goto_op, how, if_false] at h
    rw [if_pos (by rfl)]
    cases hwk : refWake s.cfg ⟨s.session, s.answers, s.draws, []⟩ with
    | hung w =>
      rw [hwk] at h
      refine ⟨n + 1, by omega, ?_⟩
      rw [ticks_succ, e1]
      exact ⟨KeepsRequest.of_goto hk, h⟩
    | raised e w =>
      rw [hwk] at h
      obtain ⟨h1,h2,h3,h4,h5,h6,h7,h8⟩ := h
      have hB : ExchangeEnd s (ticks n (s.goto .wakeWrite)) s.trace (.raised e w) .cleanup := ⟨KeepsRequest.of_goto
          hk, h1,h2,h3,h4,h5,h6,h7⟩
      obtain ⟨m, hm, hk2, h2⟩ := cleanup_stage s.trace _ s hB
      refine ⟨n + m + 1, by omega, ?_⟩
      rw [ticks_succ, e1, ticks_add]
      refine ⟨hk2, ?_⟩
      simp only [Ran.andThen]
      revert h2
      split <;> intro h2 <;> simpa [hw] using h2
    | returned u w =>
      rw [hwk] at h
      obtain ⟨h1,h2,h3,h4,h5,h6,h7,h8⟩ := h
      have hcmd := hk.cmd; have hop := hk.op; have hcfg := hk.cfg
      simp only [goto_cmd, goto_op, goto_cfg] at hcmd hop hcfg
      obtain ⟨n2, hn2, hk3,
        h9⟩ := exchange_stage (s := ticks n (s.goto .wakeWrite)) s.trace w.events h1 (by rw [hop]; exact hr)
        (by rw [hcmd]; exact hl') h2 h3 h4
      rw [hcfg, hcmd, h5, h6, h7, hw, bodyExit_true] at h9
      have hB : ExchangeEnd s (ticks n2 (ticks n (s.goto .wakeWrite))) s.trace (refExchange s.cfg s.cmd w) .cleanup
          := ⟨KeepsRequest.trans (KeepsRequest.of_goto hk) hk3, h9⟩
      obtain ⟨m, hm, hk2, h2⟩ := cleanup_stage s.trace _ s hB
      refine ⟨n + n2 + m + 1, by omega, ?_⟩
      rw [ticks_succ, e1, ticks_add, ticks_add]
      refine ⟨hk2, ?_⟩
      simp only [Ran.andThen]
      revert h2
      split <;> intro h2 <;> simpa [hw] using h2

/-- A delivered operation is over. -/
theorem tick_deliver (s : State) : tick s.deliver = s.deliver := tick_idle rfl

end Sys2Proof.Machine
end

