-- ==== Sys2Proof/Tests/Slice0.lean ====
section
/-! SUPPORT. Tests. Expected results are the vectors of spec/95_test_vectors.md (V.., P..) and its examples (E..), or
words written out from the spec's encodings; the last part shows that the hypotheses of the statements can be met. -/

namespace Sys2Proof.Tests

open Sys2Proof.Machine

/-- An example configuration: the opcodes are those of spec/93_implementation_defined.md G2, the rest is arbitrary. -/
def cfg : Cfg where
  busId := 1
  devAddr := 0x60
  cmdReg := 3
  wakeTarget := ⟨0, 0⟩
  idleTarget := ⟨0x60, 2⟩
  sleepTarget := ⟨0x60, 1⟩
  tWakeSettle := 2
  tExec := 250
  opcSelftest := 0x77
  opcRead := 0x02
  rxMode := .remainder

/-- A block between operations, with a session value and the environment's answers to come. -/
def free (session : Session) (answers : List Answer) : State :=
  { State.constructed cfg with session := session, answers := answers }

/-- What an operation delivers, and the session value after it. -/
def outcome (i : Instr) (s : State) : Option (List Delivery × Session) :=
  match exec i s with
  | .next t => some (t.delivered, t.session)
  | _ => none

/-- The trace an operation makes, as R143 writes traces. -/
def shapes (i : Instr) (s : State) : Option (List Shape) :=
  match exec i s with
  | .next t => some (t.trace.map Event.shape)
  | _ => none

def delivery (result : Result) : List Delivery := [⟨none, some result⟩]

def failure (e : Error) : List Delivery := [⟨some e, none⟩]

/-- The reply `04 11 33 43` of a good wake. -/
def goodWake : List Byte := [0x04, 0x11, 0x33, 0x43]

/-! ### Well-formedness -/

theorem test_wellFormed_accepts :
    (Instr.encode 0 0 (0, 0) (List.replicate 248 0)).wellFormed = true ∧
    (Instr.execute 0 0 (0, 0) (List.replicate 248 0) true).wellFormed = true ∧
    (Instr.selftestFrame 0x77 0x9D 0xFB).wellFormed = true ∧ (Instr.infoFrame 0x02 0x09 0xAD).wellFormed = true := by
  decide +kernel

theorem test_wellFormed_refuses_long_encode :
    (Instr.encode 0 0 (0, 0) (List.replicate 249 0)).wellFormed = false := by decide +kernel

theorem test_wellFormed_refuses_long_execute :
    (Instr.execute 0 0 (0, 0) (List.replicate 249 0) true).wellFormed = false := by decide +kernel

theorem test_wellFormed_refuses_selftestFrame_checksum :
    (Instr.selftestFrame 0x77 0x9D 0xFA).wellFormed = false := by decide +kernel

theorem test_wellFormed_refuses_infoFrame_checksum :
    (Instr.infoFrame 0x02 0xAD 0x09).wellFormed = false := by decide +kernel

/-! ### Decoding: the selectors of R61 and the frames of R67 (V30, V31), written out bit by bit -/

theorem test_decode_checksum :
    decode (.request 0b00000001 { bytes := [0x04, 0x11] }) = .ok (.checksum [0x04, 0x11]) := by decide

theorem test_decode_encode :
    decode (.request 0b00000010 { opcode := 0xAA, param1 := 0xBB, param2 := (0xCC, 0xDD), payload := [1, 2] }) =
      .ok (.encode 0xAA 0xBB (0xCC, 0xDD) [1, 2]) := by decide

theorem test_decode_decode :
    decode (.request 0b00000011 { bytes := [0x05] }) = .ok (.decode [0x05]) := by decide

theorem test_decode_classify :
    decode (.request 0b00000100 { code := 0x0F }) = .ok (.classify 0x0F) := by decide

theorem test_decode_wake : decode (.request 0b00010000 {}) = .ok .wake := by decide

theorem test_decode_idle : decode (.request 0b00010001 {}) = .ok .idle := by decide

theorem test_decode_sleep : decode (.request 0b00010010 {}) = .ok .sleep := by decide

theorem test_decode_execute :
    decode (.request 0b00100000
      { opcode := 0x47, param1 := 1, param2 := (2, 3), payload := [0xDE], autoWake := true }) =
      .ok (.execute 0x47 1 (2, 3) [0xDE] true) := by decide

theorem test_decode_selftest : decode (.request 0b00110000 {}) = .ok .selftest := by decide

theorem test_decode_info : decode (.request 0b00110001 {}) = .ok .info := by decide

theorem test_decode_selftestFrame :
    decode (.frame [0b00000111, 0b01110111, 0b00111011, 0, 0, 0b10011101, 0b11111011]) =
      .ok (.selftestFrame 0x77 0x9D 0xFB) := by decide

theorem test_decode_infoFrame :
    decode (.frame [0b00000111, 0b00000010, 0b10000000, 0, 0, 0b00001001, 0b10101101]) =
      .ok (.infoFrame 0x02 0x09 0xAD) := by decide

/-- The smallest and the largest selector, and one next to each group of R61. -/
theorem test_decode_refuses_selectors :
    ∀ x ∈ ([0x00, 0x05, 0x0F, 0x13, 0x1F, 0x21, 0x2F, 0x32, 0xFF] : List Byte),
      decode (.request x {}) = .error (.unknownOp x) := by decide

/-- V30 with a wrong count, a wrong `param1`, a wrong `param2`, one byte less and one byte more. -/
theorem test_decode_refuses_frames :
    ∀ f ∈ ([[0x06, 0x77, 0x3B, 0, 0, 0x9D, 0xFB], [0x07, 0x77, 0x3A, 0, 0, 0x9D, 0xFB],
        [0x07, 0x77, 0x3B, 0, 1, 0x9D, 0xFB], [0x07, 0x77, 0x3B, 0, 0, 0x9D],
        [0x07, 0x77, 0x3B, 0, 0, 0x9D, 0xFB, 0]] : List (List Byte)),
      decode (.frame f) = .error .notACommandFrame := by decide

theorem test_table_words :
    decodeTableWord 8 0x31 = some .info ∧ decodeTableWord 56 0xFB9D00003B7707 = some (.selftestFrame 0x77 0x9D 0xFB) ∧
    decodeTableWord 56 0xAD090000800207 = some (.infoFrame 0x02 0x09 0xAD) := by decide +kernel

/-! ### CHECKSUM -/

/-- V1, V3 to V11, V13, V17, V18. -/
theorem test_checksum_vectors :
    ([[], [0x01], [0x80], [0xFF], [0x04, 0x11], [0x04, 0x00], [0x31, 0x32, 0x33, 0x34, 0x35, 0x36, 0x37, 0x38, 0x39],
      [0x01, 0x00], [0x00, 0x00, 0x00, 0x01], [0xFF, 0xFF], [0x04, 0x11, 0x33, 0x43], [0x01, 0x02],
      [0x02, 0x01]] : List (List Byte)).map checksum =
    [[0x00, 0x00], [0x03, 0x83], [0x05, 0x80], [0x02, 0x02], [0x33, 0x43], [0x03, 0x40], [0xDD, 0xBC],
      [0x09, 0x80], [0x03, 0x83], [0x0D, 0x80], [0x2C, 0x20], [0x8A, 0x01], [0x05, 0x03]] := by decide +kernel

/-- V6 bit by bit: the accumulator after `04 11`. -/
theorem test_checksum_delivers :
    outcome (.checksum [0x04, 0x11]) (free .faulted []) = some (delivery (.bytes [0x33, 0x43]), .faulted) := by
  decide +kernel

/-! ### ENCODE -/

/-- V32 and V33: the order of the two bytes of `param2`. -/
theorem test_encode_param2_order :
    outcome (.encode 0xAA 0xBB (0xCC, 0xDD) [1, 2, 3]) (free .sleeping []) =
      some (delivery (.bytes [0x0A, 0xAA, 0xBB, 0xCC, 0xDD, 1, 2, 3, 0xC7, 0xD5]), .sleeping) ∧
    outcome (.encode 0xAA 0xBB (0xDD, 0xCC) [1, 2, 3]) (free .sleeping []) =
      some (delivery (.bytes [0x0A, 0xAA, 0xBB, 0xDD, 0xCC, 1, 2, 3, 0x3B, 0x4A]), .sleeping) := by decide +kernel

/-- V39. -/
theorem test_encode_refuses_249 :
    outcome (.encode 1 2 (3, 4) (List.replicate 249 0)) (free .awake []) =
      some (failure (.refused .payloadTooLong), .awake) := by decide +kernel

/-! ### DECODE -/

/-- V41, V43, V45, V49: a status that is no error here, a data byte that looks like one, a wrong count byte, all
zeros. -/
theorem test_decode_accepts :
    ([[0x04, 0x11, 0x33, 0x43], [0x06, 0xAA, 0x01, 0xBB, 0xD2, 0x86], [0x09, 0x00, 0x0A, 0x60],
      [0, 0, 0, 0]] : List (List Byte)).map (fun f => outcome (.decode f) (free .awake [])) =
    [some (delivery (.decoded ⟨[0x11], some 0x11⟩), .awake),
     some (delivery (.decoded ⟨[0xAA, 0x01, 0xBB], none⟩), .awake),
     some (delivery (.decoded ⟨[0x00], some 0x00⟩), .awake),
     some (delivery (.decoded ⟨[0x00], some 0x00⟩), .awake)] := by decide +kernel

/-- V47, V48, V50, V51, V53: the length is checked before the checksum. -/
theorem test_decode_rejects :
    ([[0x07, 0xAA, 0x00, 0xBB, 0xCC, 0xBE, 0xED], [0x04, 0x11, 0x33, 0x42], [0xFF, 0xFF, 0xFF, 0xFF], [],
      [0x03, 0x80, 0x02]] : List (List Byte)).map (fun f => outcome (.decode f) (free .awake [])) =
    [some (failure .checksumMismatch, .awake), some (failure .checksumMismatch, .awake),
     some (failure .checksumMismatch, .awake), some (failure .frameTooShort, .awake),
     some (failure .frameTooShort, .awake)] := by decide +kernel

/-! ### CLASSIFY -/

/-- V56: every row's category. -/
theorem test_classify_categories :
    ([0x00, 0x01, 0x03, 0x05, 0x07, 0x08, 0x0F, 0x11, 0xEE, 0xFF, 0x02, 0x10, 0x12, 0xFE] : List Byte).map classify =
    [.success, .verifyMiscompare, .parseError, .eccFault, .selfTestError, .healthTestError, .executionError,
     .beforeFirstCommand, .watchdogImminent, .communicationError, .unknownStatus 0x02, .unknownStatus 0x10,
     .unknownStatus 0x12, .unknownStatus 0xFE] := by decide

/-- V56h, V56i, V56l: the flags where they differ. -/
theorem test_classify_flags :
    outcome (.classify 0x11) (free .sleeping []) =
      some (delivery (.classified ⟨.beforeFirstCommand, false, true, false⟩), .sleeping) ∧
    outcome (.classify 0xEE) (free .sleeping []) =
      some (delivery (.classified ⟨.watchdogImminent, false, false, false⟩), .sleeping) ∧
    outcome (.classify 0x10) (free .sleeping []) =
      some (delivery (.classified ⟨.unknownStatus 0x10, false, false, true⟩), .sleeping) := by decide

/-! ### WAKE, IDLE, SLEEP -/

/-- V81, V82, V85, V90: the wake write's error does not count; all zeros succeed. -/
theorem test_wake_succeeds :
    outcome .wake (free .sleeping [.error 1, .bytes goodWake]) = some ([⟨none, none⟩], .awake) ∧
    outcome .wake (free .sleeping [.error 1, .bytes [0x04, 0x00, 0x03, 0x40]]) = some ([⟨none, none⟩], .awake) ∧
    outcome .wake (free .sleeping [.ok, .bytes [0, 0, 0, 0]]) = some ([⟨none, none⟩], .awake) ∧
    outcome .wake (free .faulted [.ok, .bytes goodWake]) = some ([⟨none, none⟩], .awake) := by decide +kernel

/-- V83, V86, V87, V88. -/
theorem test_wake_fails :
    outcome .wake (free .sleeping [.ok, .bytes [0x04, 0x11, 0x33, 0x42]]) = some (failure .wakeFailed, .faulted) ∧
    outcome .wake (free .awake [.ok, .bytes [0x04, 0x01, 0x00, 0xC3]]) = some (failure .wakeFailed, .faulted) ∧
    outcome .wake (free .awake [.ok, .bytes [0x04, 0x22, 0x9B, 0x41]]) = some (failure .wakeFailed, .faulted) ∧
    outcome .wake (free .sleeping [.ok, .error 2]) = some (failure (.transport 2), .faulted) := by decide +kernel

/-- V92, V93, V96. -/
theorem test_idle :
    outcome .idle (free .awake [.ok]) = some ([⟨none, none⟩], .sleeping) ∧
    outcome .idle (free .awake [.error 1]) = some (failure (.transport 1), .sleeping) ∧
    shapes .idle (free .faulted [.ok]) = some [.write ⟨1, 0x60, 2⟩ 0] := by decide

/-- V94, V95. -/
theorem test_sleep :
    outcome .sleep (free .faulted [.error 1]) = some (failure (.transport 1), .sleeping) ∧
    shapes .sleep (free .sleeping [.ok]) = some [.write ⟨1, 0x60, 1⟩ 0] := by decide

/-! ### EXECUTE -/

/-- V100, V103, V105 to V109: the answers to the command write, the two reads and the idle write. -/
theorem test_execute_autoWake :
    ([([.ok, .bytes [0x05], .bytes [0xDE, 0xAD, 0x38, 0x11], .ok] : List Answer),
      [.ok, .bytes [0x04], .bytes [0x11, 0x33, 0x43], .ok], [.ok, .bytes [0x04], .bytes [0x22, 0x9B, 0x41], .ok],
      [.ok, .bytes [0x00], .ok], [.ok, .bytes [0x01], .ok], [.ok, .bytes [0x03], .bytes [0x80, 0x02], .ok],
      [.ok, .bytes [0x07], .bytes [0xAA, 0x00, 0xBB, 0xCC, 0xBE, 0xED], .error 9]]).map
      (fun l => outcome (.execute 0x1B 0 (0, 0) [] true) (free .sleeping ([.ok, .bytes goodWake] ++ l))) =
    ([delivery (.bytes [0xDE, 0xAD]), failure (.commandStatus 0x11), failure (.unknownStatus 0x22),
      failure .frameTooShort, failure .frameTooShort, failure .frameTooShort, failure .checksumMismatch]).map
      (fun d => some (d, .sleeping)) := by decide +kernel

/-- P3 (E9): one idle write, no delay and no read after the failed command write; V119: no idle write without
autoWake. -/
theorem test_execute_traces :
    shapes (.execute 0x47 1 (2, 3) [0xDE, 0xAD, 0xBE, 0xEF] true)
      (free .sleeping [.error 1, .bytes [0x04, 0x11, 0x33, 0x43], .error 2, .error 3]) =
      some [.write ⟨1, 0, 0⟩ 0, .delay 2, .read ⟨1, 0x60, 3⟩ 4, .write ⟨1, 0x60, 3⟩ 11, .write ⟨1, 0x60, 2⟩ 0] ∧
    shapes (.execute 0x1B 0 (0, 0) [] false) (free .awake [.ok, .bytes [0x04], .bytes [0x0F, 0x23, 0x42]]) =
      some [.write ⟨1, 0x60, 3⟩ 7, .delay 250, .read ⟨1, 0x60, 3⟩ 1, .read ⟨1, 0x60, 3⟩ 3] := by decide +kernel

/-! ### SELFTEST and INFO -/

/-- P1, and the frame `04 18 53 40` of 95_test_vectors.md section 3.4. -/
theorem test_selftest :
    outcome .selftest (free .sleeping [.ok, .bytes goodWake, .ok, .bytes [0x04], .bytes [0x00, 0x03, 0x40], .ok]) =
      some (delivery (.selfTest ⟨.pass, .pass, .pass, .pass, .pass, 0x00⟩), .sleeping) ∧
    outcome .selftest (free .sleeping [.ok, .bytes goodWake, .ok, .bytes [0x04], .bytes [0x18, 0x53, 0x40], .ok]) =
      some (failure (.unknownStatus 0x18), .sleeping) := by decide +kernel

/-- V60, V63, V65 to V68. -/
theorem test_selftest_masks :
    ([0x18, 0x3B, 0xC4, 0x01, 0x02, 0x20] : List Byte).map selftestInterpret =
    [⟨.pass, .fail, .fail, .pass, .pass, 0x18⟩, ⟨.fail, .fail, .fail, .fail, .fail, 0x3B⟩,
     ⟨.pass, .pass, .pass, .pass, .pass, 0xC4⟩, ⟨.pass, .pass, .pass, .pass, .fail, 0x01⟩,
     ⟨.pass, .pass, .pass, .fail, .pass, 0x02⟩, ⟨.fail, .pass, .pass, .pass, .pass, 0x20⟩] := by decide

/-- P2 with the shortest accepted reply: V71's frame. -/
theorem test_info :
    outcome .info (free .sleeping [.error 1, .bytes goodWake, .ok, .bytes [0x10],
      .bytes [1, 2, 3, 4, 0xAA, 0xBB, 0xCC, 0xDD, 5, 6, 7, 8, 9, 0x96, 0x33], .ok]) =
      some (delivery (.info ⟨[1, 2, 3, 4, 5, 6, 7, 8, 9], [0xAA, 0xBB, 0xCC, 0xDD]⟩), .sleeping) := by decide +kernel

/-- V72's frame. -/
theorem test_info_short :
    outcome .info (free .sleeping [.ok, .bytes goodWake, .ok, .bytes [0x0F],
      .bytes [1, 2, 3, 4, 0xAA, 0xBB, 0xCC, 0xDD, 5, 6, 7, 8, 0xCA, 0xFD], .ok]) =
      some (failure .shortResponse, .sleeping) := by decide +kernel

/-! ### The wire frames, and the step -/

/-- The frame of V30 goes out as it stands, from Awake only. -/
theorem test_selftestFrame :
    outcome (.selftestFrame 0x77 0x9D 0xFB) (free .awake [.ok, .bytes [0x04], .bytes [0x00, 0x03, 0x40]]) =
      some (delivery (.bytes [0x00]), .awake) ∧
    outcome (.selftestFrame 0x77 0x9D 0xFB) (free .sleeping []) = some (failure (.refused .notAwake), .sleeping) := by
  decide +kernel

/-- The frame of V31. -/
theorem test_infoFrame :
    outcome (.infoFrame 0x02 0x09 0xAD) (free .awake [.ok, .bytes [0x05], .bytes [0xDE, 0xAD, 0x38, 0x11]]) =
      some (delivery (.bytes [0xDE, 0xAD]), .awake) ∧
    shapes (.infoFrame 0x02 0x09 0xAD) (free .awake [.ok, .bytes [0x01]]) =
      some [.write ⟨1, 0x60, 3⟩ 7, .delay 250, .read ⟨1, 0x60, 3⟩ 1] := by decide +kernel

/-- An unknown selector is answered and nothing else happens (R62). -/
theorem test_step_unknown :
    step { free .awake [.ok] with held := [.request 0x05 {}] } =
      .next ({ free .awake [.ok] with held := [] }.ended (some (.refused .unknownOp)) none) := rfl

/-- A request placed for the next step is the one that runs. -/
theorem test_step_runs_withFetchWord :
    step ((free .awake [.ok]).withFetchWord 8 0x11) = exec .idle (free .awake [.ok]) := rfl

/-- A block in flight: IDLE whose write has not returned. -/
def waiting : State := latch (some .idle) (free .awake [])

/-- R11: the status port, and the numbers of its values; R64: the error numbers. -/
theorem test_ports :
    (free .faulted []).statusPort = some .faulted ∧ waiting.statusPort = none ∧
    [Session.sleeping, .awake, .faulted].map Session.number = [0, 1, 2] ∧
    ([⟨none, none⟩, ⟨some (.transport 9), none⟩, ⟨some .frameTooShort, none⟩, ⟨some .checksumMismatch, none⟩,
      ⟨some .wakeFailed, none⟩, ⟨some (.commandStatus 0x11), none⟩, ⟨some (.unknownStatus 0x10), none⟩,
      ⟨some .shortResponse, none⟩, ⟨some (.refused .notAwake), none⟩] : List Delivery).map Delivery.code =
      [0, 1, 2, 3, 4, 5, 6, 7, 8] := by decide

/-- R205: an answer that comes later ends the operation, as the same answer at hand would have. -/
theorem test_step_resumes :
    step { waiting with answers := [.error 1] } =
      .next ({ free .sleeping [] with trace := [.write ⟨1, 0x60, 2⟩ [] (some 1)] }.ended (some (.transport 1)) none) :=
  rfl

/-! ### The hypotheses of the statements can be met -/

theorem test_goodWake : GoodWakeReply goodWake := ⟨0x04, 0x11, by decide, by decide +kernel⟩

theorem test_goodWake_success : GoodWakeReply [0, 0, 0, 0] := ⟨0x00, 0x00, by decide, by decide +kernel⟩

theorem test_badWake : ¬ GoodWakeReply [0xFF, 0xFF, 0xFF, 0xFF] := by
  rintro ⟨cc, ss, hss, h⟩
  simp only [List.cons_append, List.nil_append, List.cons.injEq] at h
  obtain ⟨-, rfl, -⟩ := h
  revert hss; decide

/-- Every statement whose only hypothesis is `busy = false`: ChecksumDelivers, DecodeDelivers, ClassifyDelivers, the
refinement statements, AnsweredOperationsEnd (with `busy = true` after, next theorem). -/
theorem test_wit_notBusy : (free .sleeping []).busy = false ∧ State.reset.busy = false := ⟨rfl, rfl⟩

/-- AnsweredOperationsEnd, its clauses: six answers, and none (resuming is `test_step_resumes`). -/
theorem test_wit_AnsweredOperationsEnd :
    6 ≤ (free .sleeping [.ok, .ok, .ok, .ok, .ok, .ok]).answers.length ∧
    ∃ t, exec .idle (free .sleeping []) = .next t ∧ t.busy = true := ⟨by decide, _, rfl, by decide⟩

theorem test_wit_DecodedWordsEncodeBack :
    decode (.frame [0x07, 0x00, 0x80, 0, 0, 0xFF, 0xFF]) = .ok (.infoFrame 0x00 0xFF 0xFF) ∧
    decode (.request 0x31 { code := 1 }) = .ok .info ∧
    decode (.request 0x02 { opcode := 1, autoWake := true }) = .ok (.encode 1 0 (0, 0) []) := by decide

/-- Each clause: selectors at the edges of the ten, frames that are not of R67, a request held alone. -/
theorem test_wit_UnknownSelectorIsRefused :
    (∀ x ∈ ([0x00, 0x05, 0x0F, 0x13, 0x32, 0xFF] : List Byte),
      x ∉ ([0x01, 0x02, 0x03, 0x04, 0x10, 0x11, 0x12, 0x20, 0x30, 0x31] : List Byte) ∧
      takeHeld { free .awake [] with held := [.request x {}] } = some (.request x {}, free .awake []) ∧
      decode (.request x {}) = .error (.unknownOp x)) ∧
    (∀ opcode lo hi : Byte, ([] : List Byte) ≠ [0x07, opcode, 0x3B, 0x00, 0x00, lo, hi] ∧
      ([] : List Byte) ≠ [0x07, opcode, 0x80, 0x00, 0x00, lo, hi]) ∧
    decode (.frame [0x07, 0x77, 0x3C, 0, 0, 0, 0]) = .error .notACommandFrame ∧ (free .awake []).busy = false :=
  ⟨by decide, fun _ _ _ => ⟨by simp, by simp⟩, by decide, rfl⟩

/-- The same where two such requests are held, whichever is taken. -/
theorem test_wit_UnknownSelector_two_held :
    ∃ w s' e, takeHeld { free .awake [] with held := [.request 0x05 {}, .frame []] } = some (w, s') ∧
      decode w = .error e := by
  rcases Nat.mod_two_eq_zero_or_one (Config.pickHeld 0) with h | h <;>
    simp [takeHeld, takeAt, free, State.constructed, h, decode, decodeRequest, decodeFrame]

theorem test_wit_ChecksumIsLinear : ([0xA5, 0x01] : List Byte).length = ([0x5A, 0x80] : List Byte).length := rfl

theorem test_wit_payload_lengths :
    (List.replicate 248 (0 : Byte)).length ≤ 248 ∧ 248 < (List.replicate 249 (0 : Byte)).length := by
  decide +kernel

/-- EncodedFramesDescribeThemselves, CommandFrameDecodesToFields: V34. -/
theorem test_wit_encodeCommand :
    encodeCommand ⟨0, 0, (0, 0), [], false⟩ = .ok [0x07, 0, 0, 0, 0, 0x03, 0xAD] := by decide +kernel

theorem test_wit_encodeCommand_longest :
    (encodeCommand ⟨0, 0, (0, 0), List.replicate 248 0, false⟩).toOption.isSome = true := by decide +kernel

theorem test_wit_ReplyFramesRoundTrip :
    1 ≤ ([0x11] : List Byte).length ∧ ([0x11] : List Byte).length ≤ 252 ∧
    1 ≤ (List.replicate 252 (0 : Byte)).length ∧ (List.replicate 252 (0 : Byte)).length ≤ 252 ∧
    ([0x11] : List Byte) ≠ [] := by decide +kernel

/-- V40; the first and the last bit of the frame. -/
theorem test_wit_SingleBitFlipIsDetected :
    decodeReply [0x04, 0x00, 0x03, 0x40] = .ok ⟨[0x00], some 0x00⟩ ∧
    decodeReply ([0x04, 0x00, 0x03, 0x40].modify 0 (· ^^^ (1#8 <<< 0))) = .error .checksumMismatch ∧
    decodeReply ([0x04, 0x00, 0x03, 0x40].modify 3 (· ^^^ (1#8 <<< 7))) = .error .checksumMismatch := by
  decide +kernel

theorem test_wit_PureOperationsFrame :
    (∃ t, exec (.checksum []) (free .faulted []) = .next t) ∧
    (∃ t, exec (.encode 1 2 (3, 4) []) (free .faulted []) = .next t) ∧
    (∃ t, exec (.decode []) (free .faulted []) = .next t) ∧
    (∃ t, exec (.classify 0) (free .faulted []) = .next t) := ⟨⟨_, rfl⟩, ⟨_, rfl⟩, ⟨_, rfl⟩, ⟨_, rfl⟩⟩

/-- WakeFollowsReply, both clauses. -/
theorem test_wit_WakeFollowsReply :
    (free .faulted [.error 1, .bytes goodWake]).answers = [.error 1, .bytes goodWake] ∧ goodWake.length = 4 ∧
    GoodWakeReply goodWake ∧
    (free .awake [.ok, .bytes [0xFF, 0xFF, 0xFF, 0xFF]]).answers = [.ok, .bytes [0xFF, 0xFF, 0xFF, 0xFF]] ∧
    ¬ GoodWakeReply [0xFF, 0xFF, 0xFF, 0xFF] := ⟨rfl, rfl, test_goodWake, rfl, test_badWake⟩

theorem test_wit_WakeReadErrorPassesThrough :
    (free .awake [.ok, .error 2]).busy = false ∧ (free .awake [.ok, .error 2]).answers = [.ok, .error 2] :=
  ⟨rfl, rfl⟩

theorem test_wit_IdleAndSleepDeliver :
    (free .awake [.error 1]).busy = false ∧ (free .awake [.error 1]).answers = [.error 1] := ⟨rfl, rfl⟩

/-- ExecuteRefusals: Sleeping and Faulted for the second clause; the first one's payload is above. -/
theorem test_wit_ExecuteRefusals :
    (free .sleeping []).session ≠ .awake ∧ (free .faulted []).session ≠ .awake ∧
    (free .sleeping []).busy = false := by decide

/-- The Command of V36 with either autoWake, the data reply of V100 and the status reply of V101. -/
def v36 (autoWake : Bool) : Cmd := ⟨0x1B, 0, (0, 0), [], autoWake⟩

def v100 : List Byte := [0xDE, 0xAD, 0x38, 0x11]

def v101 : List Byte := [0x00, 0x03, 0x40]

/-- A good wake, then a command whose reply has first byte `len` and rest `body`, then the idle write. -/
def woken (len : Byte) (body : List Byte) : State :=
  free .sleeping [.error 1, .bytes goodWake, .ok, .bytes [len], .bytes body, .error 9]

/-- From Awake, a command whose reply has first byte `len` and rest `body`. -/
def answered (len : Byte) (body : List Byte) : State :=
  free .awake [.ok, .bytes [len], .bytes body]

theorem test_replies :
    decodeReply (0x05 :: v100) = .ok ⟨[0xDE, 0xAD], none⟩ ∧ decodeReply (0x04 :: v101) = .ok ⟨[0x00], some 0x00⟩ := by
  decide +kernel

/-- With a data reply. -/
theorem test_wit_ExecuteAutoWakeDelivers :
    (woken 0x05 v100).busy = false ∧ (woken 0x05 v100).cfg.rxMode = .remainder ∧ (v36 true).autoWake = true ∧
    (v36 true).payload.length ≤ 248 ∧
    (woken 0x05 v100).answers =
      .error 1 :: .bytes goodWake :: .ok :: .bytes [0x05] :: .bytes v100 :: .error 9 :: [] ∧
    GoodWakeReply goodWake ∧ Answer.ok.failure = none ∧ v100.length + 1 = (0x05 : Byte).toNat ∧ 1 ≤ v100.length ∧
    decodeReply (0x05 :: v100) = .ok ⟨[0xDE, 0xAD], none⟩ :=
  ⟨rfl, rfl, rfl, by decide, rfl, test_goodWake, rfl, by decide, by decide, test_replies.1⟩

/-- With a status reply. -/
theorem test_wit_ExecuteFromAwakeDelivers :
    (answered 0x04 v101).busy = false ∧ (answered 0x04 v101).cfg.rxMode = .remainder ∧
    (answered 0x04 v101).session = .awake ∧ (v36 false).autoWake = false ∧ (v36 false).payload.length ≤ 248 ∧
    (answered 0x04 v101).answers = .ok :: .bytes [0x04] :: .bytes v101 :: [] ∧ Answer.ok.failure = none ∧
    v101.length + 1 = (0x04 : Byte).toNat ∧ 1 ≤ v101.length ∧
    decodeReply (0x04 :: v101) = .ok ⟨[0x00], some 0x00⟩ ∧ (some 0x00 : Option Byte) = some 0x00 :=
  ⟨rfl, rfl, rfl, rfl, by decide, rfl, rfl, by decide, by decide, test_replies.2, rfl⟩

/-- Both clauses: a read error, and a wrong checksum. -/
theorem test_wit_ExecuteWakeFailureStillIdles :
    (free .awake [.ok, .error 9, .ok]).busy = false ∧ (v36 true).autoWake = true ∧
    (v36 true).payload.length ≤ 248 ∧ (free .awake [.ok, .error 9, .ok]).answers = .ok :: .error 9 :: .ok :: [] ∧
    (free .awake [.ok, .bytes [0xFF, 0xFF, 0xFF, 0xFF], .ok]).answers =
      .ok :: .bytes [0xFF, 0xFF, 0xFF, 0xFF] :: .ok :: [] ∧
    ([0xFF, 0xFF, 0xFF, 0xFF] : List Byte).length = 4 ∧ ¬ GoodWakeReply [0xFF, 0xFF, 0xFF, 0xFF] :=
  ⟨rfl, rfl, by decide, rfl, rfl, rfl, test_badWake⟩

/-- Both clauses: P3's answers, and V121's. -/
theorem test_wit_ExecuteWriteFailureIdlesOnce :
    (free .sleeping [.error 1, .bytes goodWake, .error 2, .error 3]).busy = false ∧
    (v36 true).payload.length ≤ 248 ∧ (v36 true).autoWake = true ∧ GoodWakeReply goodWake ∧
    (free .sleeping [.error 1, .bytes goodWake, .error 2, .error 3]).answers =
      .error 1 :: .bytes goodWake :: .error 2 :: .error 3 :: [] ∧
    (v36 false).autoWake = false ∧ (free .awake [.error 2]).session = .awake ∧
    (free .awake [.error 2]).answers = .error 2 :: [] :=
  ⟨rfl, by decide, rfl, test_goodWake, rfl, rfl, rfl, rfl⟩

/-- Both clauses, the second at the smallest length that is read. -/
theorem test_wit_ExecuteReadFailures :
    (free .awake [.ok, .error 4]).busy = false ∧ (free .awake [.ok, .error 4]).cfg.rxMode = .remainder ∧
    (free .awake [.ok, .error 4]).session = .awake ∧ (v36 false).autoWake = false ∧
    (v36 false).payload.length ≤ 248 ∧ Answer.ok.failure = none ∧
    (free .awake [.ok, .error 4]).answers = .ok :: .error 4 :: [] ∧ 2 ≤ (0x02 : Byte).toNat ∧
    (free .awake [.ok, .bytes [0x02], .error 5]).answers = .ok :: .bytes [0x02] :: .error 5 :: [] := by decide

/-- At 0 and at 1. -/
theorem test_wit_ExecuteLengthBelowTwo :
    (free .awake [.ok, .bytes [0x01]]).busy = false ∧ (free .awake [.ok, .bytes [0x01]]).cfg.rxMode = .remainder ∧
    (free .awake [.ok, .bytes [0x01]]).session = .awake ∧ (v36 false).autoWake = false ∧
    (v36 false).payload.length ≤ 248 ∧ Answer.ok.failure = none ∧ (0x00 : Byte).toNat < 2 ∧ (0x01 : Byte).toNat < 2 ∧
    (free .awake [.ok, .bytes [0x01]]).answers = .ok :: .bytes [0x01] :: [] := by decide

/-- A known code (V103), and an unknown one. -/
theorem test_wit_ExecuteStatusErrors :
    (answered 0x04 (0x11 :: checksum [0x04, 0x11])).busy = false ∧
    (answered 0x04 (0x11 :: checksum [0x04, 0x11])).cfg.rxMode = .remainder ∧
    (answered 0x04 (0x11 :: checksum [0x04, 0x11])).session = .awake ∧ (v36 false).autoWake = false ∧
    (v36 false).payload.length ≤ 248 ∧ Answer.ok.failure = none ∧ (0x11 : Byte) ≠ 0x00 ∧
    (answered 0x04 (0x11 :: checksum [0x04, 0x11])).answers =
      .ok :: .bytes [0x04] :: .bytes (0x11 :: checksum [0x04, 0x11]) :: [] ∧
    (statusTable.lookup 0x11).isSome = true ∧ (statusTable.lookup 0x22).isSome = false := by decide +kernel

/-- A block constructed with the other reading of D7, from Awake. -/
def restartBlock : State :=
  { answered 0x04 [0x04, 0x00, 0x03, 0x40] with cfg := { cfg with rxMode := .restart } }

/-- V101 under `RX_MODE = Restart`. -/
theorem test_wit_ExecuteRestartReading :
    restartBlock.busy = false ∧ restartBlock.cfg.rxMode = .restart ∧ restartBlock.session = .awake ∧
    (v36 false).autoWake = false ∧ (v36 false).payload.length ≤ 248 ∧
    restartBlock.answers = .ok :: .bytes [0x04] :: .bytes [0x04, 0x00, 0x03, 0x40] :: [] ∧
    Answer.ok.failure = none ∧ ([0x04, 0x00, 0x03, 0x40] : List Byte).length = (0x04 : Byte).toNat ∧
    decodeReply [0x04, 0x00, 0x03, 0x40] = .ok ⟨[0x00], some 0x00⟩ := by decide +kernel

/-- TransportOperationsFrame, SessionTransitions: an operation that has delivered. -/
theorem test_wit_delivered :
    ∃ t, exec (.execute 1 2 (3, 4) [] false) (free .awake [.error 2]) = .next t ∧ t.busy = false ∧
      (free .awake [.error 2]).busy = false ∧ (free .awake [.error 2]).cfg.rxMode = .remainder := ⟨_, rfl, rfl, rfl, rfl⟩

/-- EXECUTE with `n` payload bytes, from the states of `free` (not busy, `RX_MODE = Remainder`), has delivered. -/
def executeEnds (n : Nat) (autoWake : Bool) (s : State) : Bool :=
  match exec (.execute 1 2 (3, 4) (List.replicate n 0) autoWake) s with
  | .next t => !t.busy
  | _ => false

/-- ExecuteTraceRows, a delivery under each clause: 249 bytes; autoWake with a failed wake read; Awake without autoWake
with a failed write; neither Awake nor autoWake. -/
theorem test_wit_ExecuteTraceRows :
    executeEnds 249 true (free .sleeping []) = true ∧
    executeEnds 0 true (free .sleeping [.ok, .error 9, .ok]) = true ∧
    executeEnds 0 false (free .awake [.error 2]) = true ∧ executeEnds 0 false (free .faulted []) = true ∧
    ∀ session answers, (free session answers).busy = false ∧ (free session answers).cfg.rxMode = .remainder :=
  ⟨by decide +kernel, by decide +kernel, by decide +kernel, by decide +kernel, fun _ _ => ⟨rfl, rfl⟩⟩

/-- R111, R205: the wake read has not returned; the session is not yet changed, and the write and the delay have
happened. -/
theorem test_wake_waits :
    refWake cfg (free .awake [.ok]).world = .hung ⟨.awake, [], 0, [.write ⟨1, 0, 0⟩ [] none, .delay 2]⟩ ∧
    shapes .wake (free .awake [.ok]) = some [.write ⟨1, 0, 0⟩ 0, .delay 2] := by decide

/-- SessionTransitions and TransportOperationsFrame for the operations of the session. -/
theorem test_wit_sessionOperations :
    (∃ t, exec .wake (free .faulted [.ok, .error 2]) = .next t ∧ t.busy = false) ∧
    (∃ t, exec .idle (free .faulted [.ok]) = .next t ∧ t.busy = false) ∧
    (∃ t, exec .sleep (free .faulted [.error 2]) = .next t ∧ t.busy = false) :=
  ⟨⟨_, rfl, rfl⟩, ⟨_, rfl, rfl⟩, ⟨_, rfl, rfl⟩⟩

/-- With P1's reply. -/
theorem test_wit_SelftestDelivers :
    (woken 0x04 v101).busy = false ∧ (woken 0x04 v101).cfg.rxMode = .remainder ∧
    (woken 0x04 v101).answers =
      .error 1 :: .bytes goodWake :: .ok :: .bytes [0x04] :: .bytes v101 :: .error 9 :: [] ∧
    GoodWakeReply goodWake ∧ Answer.ok.failure = none ∧ v101.length + 1 = (0x04 : Byte).toNat ∧ 1 ≤ v101.length ∧
    decodeReply (0x04 :: v101) = .ok ⟨0x00 :: [], some 0x00⟩ :=
  ⟨rfl, rfl, rfl, test_goodWake, rfl, by decide, by decide, test_replies.2⟩

/-- With the mask `0x18`, and with `0x01`, which the table knows. -/
theorem test_wit_SelftestMaskReadAsStatus :
    (woken 0x04 (0x18 :: checksum [0x04, 0x18])).busy = false ∧
    (woken 0x04 (0x18 :: checksum [0x04, 0x18])).cfg.rxMode = .remainder ∧ (0x18 : Byte) ≠ 0x00 ∧
    GoodWakeReply goodWake ∧ Answer.ok.failure = none ∧
    (woken 0x04 (0x18 :: checksum [0x04, 0x18])).answers = .error 1 :: .bytes goodWake :: .ok :: .bytes [0x04] ::
      .bytes (0x18 :: checksum [0x04, 0x18]) :: .error 9 :: [] ∧
    (statusTable.lookup 0x01).isSome = true :=
  ⟨rfl, rfl, by decide, test_goodWake, rfl, rfl, by decide⟩

/-- V71 and V72: what follows the count byte of the shortest accepted reply and of the longest that is too short. -/
def v71 : List Byte := [1, 2, 3, 4, 0xAA, 0xBB, 0xCC, 0xDD, 5, 6, 7, 8, 9, 0x96, 0x33]

def v72 : List Byte := [1, 2, 3, 4, 0xAA, 0xBB, 0xCC, 0xDD, 5, 6, 7, 8, 0xCA, 0xFD]

theorem test_wit_InfoDelivers :
    (woken 0x10 v71).busy = false ∧ (woken 0x10 v71).cfg.rxMode = .remainder ∧
    (woken 0x10 v71).answers =
      .error 1 :: .bytes goodWake :: .ok :: .bytes [0x10] :: .bytes v71 :: .error 9 :: [] ∧
    GoodWakeReply goodWake ∧ Answer.ok.failure = none ∧ v71.length + 1 = (0x10 : Byte).toNat ∧
    decodeReply (0x10 :: v71) = .ok ⟨v71.take 13, none⟩ ∧ 13 ≤ (v71.take 13).length :=
  ⟨rfl, rfl, rfl, test_goodWake, rfl, by decide, by decide +kernel, by decide⟩

/-- At 12 bytes; a bare Success is `test_replies`. -/
theorem test_wit_InfoShortResponse :
    (woken 0x0F v72).busy = false ∧ (woken 0x0F v72).cfg.rxMode = .remainder ∧
    (woken 0x0F v72).answers =
      .error 1 :: .bytes goodWake :: .ok :: .bytes [0x0F] :: .bytes v72 :: .error 9 :: [] ∧
    GoodWakeReply goodWake ∧ Answer.ok.failure = none ∧ v72.length + 1 = (0x0F : Byte).toNat ∧
    decodeReply (0x0F :: v72) = .ok ⟨v72.take 12, none⟩ ∧ (v72.take 12).length < 13 :=
  ⟨rfl, rfl, rfl, test_goodWake, rfl, by decide, by decide +kernel, by decide⟩

theorem test_wit_WireFramesExchange :
    (answered 0x05 v100).busy = false ∧ (answered 0x05 v100).cfg.rxMode = .remainder ∧
    (answered 0x05 v100).session = .awake ∧
    (answered 0x05 v100).answers = .ok :: .bytes [0x05] :: .bytes v100 :: [] ∧ Answer.ok.failure = none ∧
    v100.length + 1 = (0x05 : Byte).toNat ∧ 1 ≤ v100.length ∧
    decodeReply (0x05 :: v100) = .ok ⟨[0xDE, 0xAD], none⟩ :=
  ⟨rfl, rfl, rfl, rfl, rfl, by decide, by decide, test_replies.1⟩

theorem test_wit_WireFramesNeedAwake :
    (free .faulted []).busy = false ∧ (free .faulted []).session ≠ .awake := by decide

/-- A well-formed request, and one that is not (R132: EXECUTE with 249 payload bytes). -/
theorem test_wit_StepRunsDecodedInstruction :
    takeHeld { free .awake [] with held := [.request 0x11 {}] } = some (.request 0x11 {}, free .awake []) ∧
    decode (.request 0x11 {}) = .ok .idle ∧
    (∃ i, decode (.request 0x20 { payload := List.replicate 249 0 }) = .ok i ∧ i.wellFormed = false) :=
  ⟨by decide, by decide, _, rfl, by decide +kernel⟩

/-- AnyHeldRequestIsTaken: no request, one, two. -/
theorem test_wit_AnyHeldRequestIsTaken :
    (free .awake []).held = [] ∧ ({ free .awake [] with held := [.request 0 {}] } : State).held = [.request 0 {}] ∧
    ({ free .awake [] with held := [.request 0 {}, .request 1 {}] } : State).held ≠ [] := by decide

/-- BusyBlockHoldsRequests, WaitingChangesNothing, ConstructionOnlyWhenNotBusy, InFlightIgnoresRequestPort and
OneDeliveryPerRequest. -/
theorem test_wit_busy :
    waiting.busy = true ∧ waiting.answers = [] ∧ waiting.phase ∈ transportPhases ∧ waiting.phase ≠ .readBody ∧
    (∃ t, step waiting = .next t) ∧ (free .awake []).busy = false ∧ (free .awake []).held = [] :=
  ⟨rfl, rfl, by decide, by decide, ⟨_, rfl⟩, rfl, rfl⟩

/-- WaitingChangesNothing in `ReadBody`. -/
theorem test_wit_readBody : bodyReadLength .remainder 0x02 ≠ none := by decide

/-- StepKeepsConfiguration, RecordsOnlyGrow, StepKeepsConsistency, PhasesFollowArrows: reset steps, and is
consistent. -/
theorem test_wit_Consistent : Consistent (State.constructed cfg) ∧ ∃ t, step (State.constructed cfg) = .next t := by
  refine ⟨?_, _, rfl⟩
  constructor <;> simp [State.constructed, wakePhases, exchangePhases]

/-- A consistent state in flight: the invariant is not only about idle states. -/
theorem test_wit_Consistent_busy : Consistent waiting := by
  constructor <;> simp [waiting, latch, free, State.constructed, firstPhase, phasesOf, wakePhases, exchangePhases,
    autoWakes]
  intro i c hi hc
  subst hi
  simp [commandOf] at hc

theorem test_wit_Reachable : Reachable (State.constructed cfg) := .reset cfg

/-- A run reaches a state in which IDLE waits for its write. -/
theorem test_wit_Reachable_busy : Reachable (latch (some .idle) (State.constructed cfg)) ∧ (latch (some .idle) (State.constructed cfg)).busy = true :=
  ⟨.step _ _ (.stimulus (.present (.request 0x11 {})) _ _ (.reset cfg) rfl) rfl, rfl⟩

end Sys2Proof.Tests
end

-- ==== Proofs: the phases of an operation ====
section
/-! Which operations pass through which phase, as the table of R17 is read by `phasesOf`. -/

namespace Sys2Proof.Machine

variable {op : Option Instr} {p : Phase}

/-- WAKE, IDLE and SLEEP, the operations that have no operands and do not pass through `Check` (R17). -/
def isSessionOp (op : Option Instr) : Bool :=
  match op with
  | some .wake | some .idle | some .sleep => true
  | _ => false

@[simp] theorem idle_not_mem_phasesOf : Phase.idle ∉ phasesOf op := by
  fun_cases phasesOf op <;> decide

@[simp] theorem done_mem_phasesOf : Phase.done ∈ phasesOf op := by
  fun_cases phasesOf op <;> decide

theorem check_mem_phasesOf : Phase.check ∈ phasesOf op ↔ isSessionOp op = false := by
  fun_cases phasesOf op <;> simp [isSessionOp, wakePhases]

theorem powerWrite_mem_phasesOf :
    Phase.powerWrite ∈ phasesOf op ↔ op = some .idle ∨ op = some .sleep := by
  fun_cases phasesOf op <;> simp [wakePhases, exchangePhases]

theorem wakePhase_mem_phasesOf (hp : p ∈ wakePhases) :
    p ∈ phasesOf op ↔ op = some .wake ∨ autoWakes op = true := by
  simp only [wakePhases, List.mem_cons, List.not_mem_nil, or_false] at hp
  rcases hp with rfl | rfl | rfl <;>
    fun_cases phasesOf op <;> simp [autoWakes, wakePhases, exchangePhases]

theorem exchangePhase_mem_phasesOf (hp : p ∈ exchangePhases) : p ∈ phasesOf op ↔ isCommand op = true := by
  simp only [exchangePhases, List.mem_cons, List.not_mem_nil, or_false] at hp
  rcases hp with rfl | rfl | rfl | rfl | rfl | rfl <;>
    fun_cases phasesOf op <;> simp [isCommand, wakePhases, exchangePhases]

theorem cleanup_mem_phasesOf : Phase.cleanup ∈ phasesOf op ↔ autoWakes op = true := by
  fun_cases phasesOf op <;> simp [autoWakes, wakePhases, exchangePhases]

theorem interpret_mem_phasesOf : Phase.interpret ∈ phasesOf op ↔ interprets op = true := by
  fun_cases phasesOf op <;> simp [interprets, wakePhases, exchangePhases]

theorem isCommand_of_autoWakes (h : autoWakes op = true) : isCommand op = true := by
  fun_cases autoWakes op <;> simp_all [isCommand, autoWakes]

theorem ne_wake_of_isCommand (h : isCommand op = true) : op ≠ some .wake := by
  rintro rfl; simp [isCommand] at h

end Sys2Proof.Machine
end

-- ==== Proofs: an operation in flight ====
section
/-! What a state must have to be consistent in a given phase, and what of it any phase keeps. -/

namespace Sys2Proof.Machine

variable {s t : State}

/-- A phase that does not deliver keeps the request in flight. -/
theorem tick_keepsRequest (hp : s.phase ≠ .done) : KeepsRequest s (tick s) := by
  obtain ⟨hcfg, hheld, hcmd, -, -, ⟨hbusy, hop, hdel⟩ | ⟨hdone, -⟩⟩ := tick_follows s
  · exact ⟨hcfg, hop, hcmd, hheld, hdel, hbusy⟩
  · exact absurd hdone hp

/-- An operation is in flight, and `cmd` holds its Command (R12, R14). -/
structure InFlight (op : Option Instr) (t : State) : Prop where
  busy : t.busy = true
  op_eq : t.op = op
  cmd_latched : ∀ i c, op = some i → commandOf i t.cfg = some c → t.cmd = c

theorem Consistent.inFlight (h : Consistent s) (hp : s.phase ≠ .idle) : InFlight s.op s :=
  ⟨h.busy_iff.2 hp, rfl, h.cmd_latched⟩

theorem InFlight.keep {op : Option Instr} (h : InFlight op s) (k : KeepsRequest s t) : InFlight op t :=
  ⟨k.busy.trans h.busy, k.op.trans h.op_eq, fun i c hi hc => k.cmd.trans (h.cmd_latched i c hi (k.cfg ▸ hc))⟩

theorem inFlight_latch (i : Option Instr) (s : State) : InFlight i (latch i s) :=
  ⟨rfl, rfl, by rintro j c rfl hc; rw [latch_cfg] at hc; simp [hc]⟩

/-- The autoWake bit of the latched Command is the operation's own (R14, R150, R153). -/
theorem InFlight.autoWake_eq {op : Option Instr} (h : InFlight op s) (hc : isCommand op = true) :
    s.cmd.autoWake = autoWakes op := by
  cases op with
  | none => cases hc
  | some i =>
    cases i
    case execute => rw [h.cmd_latched _ _ rfl rfl]; rfl
    case selftest => rw [h.cmd_latched _ _ rfl rfl]; rfl
    case info => rw [h.cmd_latched _ _ rfl rfl]; rfl
    case selftestFrame => rw [h.cmd_latched _ _ rfl rfl]; rfl
    case infoFrame => rw [h.cmd_latched _ _ rfl rfl]; rfl
    all_goals cases hc

/-! ### What makes a state in flight consistent, by the phase it is in -/

section
variable {op : Option Instr} (f : InFlight op t)
include f

theorem InFlight.consistent_check (hp : t.phase = .check) (hop : isSessionOp op = false) (he : t.err = none)
    (hr : t.result = none) : Consistent t := by
  obtain ⟨hb, rfl, hcmd⟩ := f
  have hm := check_mem_phasesOf.2 hop
  constructor <;> simp_all [wakePhases, exchangePhases]

theorem InFlight.consistent_powerWrite (hp : t.phase = .powerWrite) (hop : op = some .idle ∨ op = some .sleep)
    (he : t.err = none) (hr : t.result = none) : Consistent t := by
  obtain ⟨hb, rfl, hcmd⟩ := f
  have hm := powerWrite_mem_phasesOf.2 hop
  constructor <;> simp_all [wakePhases, exchangePhases]

theorem InFlight.consistent_wake (hp : t.phase ∈ wakePhases) (hop : op = some .wake ∨ autoWakes op = true)
    (he : t.err = none) (hr : t.result = none)
    (hl : op ≠ some .wake → t.cmd.payload.length ≤ maxPayload) : Consistent t := by
  obtain ⟨hb, rfl, hcmd⟩ := f
  have hm := (wakePhase_mem_phasesOf hp).2 hop
  simp only [wakePhases, List.mem_cons, List.not_mem_nil, or_false] at hp
  rcases hp with hp | hp | hp <;> constructor <;> simp_all [wakePhases, exchangePhases]

/-- In the command exchange, where nothing is claimed of a buffer but in `CmdWrite` and `Decode`. -/
theorem InFlight.consistent_exchange (hp : t.phase ∈ exchangePhases) (hop : isCommand op = true)
    (he : t.err = none) (hr : t.result = none) (hs : t.session = .awake)
    (hl : t.cmd.payload.length ≤ maxPayload)
    (hf : t.phase = .cmdWrite →
      t.txbuf = (op.bind readyFrame).getD (commandHead t.cmd ++ checksum (commandHead t.cmd)))
    (hd : t.phase = .decode → t.cfg.rxMode = .remainder →
      t.rxbuf.head? = some t.rxlen ∧ t.rxbuf.length = max 1 t.rxlen.toNat) : Consistent t := by
  obtain ⟨hb, rfl, hcmd⟩ := f
  have hm := (exchangePhase_mem_phasesOf hp).2 hop
  have hne : t.phase ≠ .idle ∧ t.phase ≠ .cleanup ∧ t.phase ≠ .interpret ∧ t.phase ≠ .done := by
    simp only [exchangePhases, List.mem_cons, List.not_mem_nil, or_false] at hp
    rcases hp with hp | hp | hp | hp | hp | hp <;> simp [hp]
  constructor <;> simp_all

theorem InFlight.consistent_cleanup (hp : t.phase = .cleanup) (hop : autoWakes op = true)
    (hn : t.err ≠ none → t.result = none) (ho : t.err = none → ∃ m r, t.result = some (.bytes (m :: r))) :
    Consistent t := by
  obtain ⟨hb, rfl, hcmd⟩ := f
  have hm := cleanup_mem_phasesOf.2 hop
  constructor <;> simp_all [wakePhases, exchangePhases]

theorem InFlight.consistent_interpret (hp : t.phase = .interpret) (hop : interprets op = true)
    (he : t.err = none) (ho : ∃ m r, t.result = some (.bytes (m :: r))) (hs : t.session = .sleeping) :
    Consistent t := by
  obtain ⟨hb, rfl, hcmd⟩ := f
  have hm := interpret_mem_phasesOf.2 hop
  constructor <;> simp_all [wakePhases, exchangePhases]

theorem InFlight.consistent_done (hp : t.phase = .done) (hn : t.err ≠ none → t.result = none)
    (hs : autoWakes op = true → isRefusal t.err = false → t.session = .sleeping) : Consistent t := by
  obtain ⟨hb, rfl, hcmd⟩ := f
  constructor <;> simp_all [wakePhases, exchangePhases]

end

/-- Where the command exchange ends, by an error or with data (R139, R140). -/
theorem InFlight.consistent_bodyExit {op : Option Instr} (f : InFlight op t) (hop : isCommand op = true)
    (hp : t.phase = bodyExit t.cmd.autoWake)
    (ho : (t.err ≠ none ∧ t.result = none) ∨ (t.err = none ∧ ∃ m r, t.result = some (.bytes (m :: r)))) :
    Consistent t := by
  rw [f.autoWake_eq hop] at hp
  cases hw : autoWakes op with
  | true =>
    rw [hw] at hp
    exact f.consistent_cleanup hp hw (by tauto) (by tauto)
  | false =>
    rw [hw] at hp
    exact f.consistent_done hp (by tauto) (by simp [hw])

/-- Acceptance leads to a consistent state, whatever was there before (R42, R131). -/
theorem consistent_latch (i : Option Instr) (s : State) : Consistent (latch i s) := by
  have f := inFlight_latch i s
  cases i with
  | none => exact f.consistent_check rfl rfl rfl rfl
  | some i =>
    cases i
    case wake => exact f.consistent_wake (by simp [firstPhase, wakePhases]) (.inl rfl) rfl rfl (absurd rfl)
    case idle => exact f.consistent_powerWrite rfl (.inl rfl) rfl rfl
    case sleep => exact f.consistent_powerWrite rfl (.inr rfl) rfl rfl
    all_goals exact f.consistent_check rfl rfl rfl rfl

/-- Delivery leads to a consistent state: the block is idle (R140). -/
theorem Consistent.deliver (h : Consistent s) : Consistent s.deliver := by
  have hn := h.no_result
  constructor <;> simp_all [wakePhases, exchangePhases]

/-- The invariant does not speak of what stands outside the block: the request port, the environment's answers, the
records and the count of free values. -/
theorem Consistent.outside (h : Consistent s) (held : List PortWord) (answers : List Answer) (trace : List Event)
    (delivered : List Delivery) (draws : Nat) :
    Consistent { s with
      held := held, answers := answers, trace := trace, delivered := delivered, draws := draws } :=
  ⟨h.busy_iff, h.idle_op, h.phase_mem, h.cmd_latched, h.fresh, h.no_result, h.awake, h.payload, h.frame, h.reply,
    h.outcome, h.interpret, h.released⟩

theorem consistent_constructed (cfg : Cfg) : Consistent (State.constructed cfg) := by
  constructor <;> simp [State.constructed, wakePhases, exchangePhases]

end Sys2Proof.Machine
end

-- ==== Proofs: one phase of a consistent state ====
section
/-! One phase, from any consistent state: it waits, or it moves along an arrow of R17 and stays consistent. -/

namespace Sys2Proof.Machine

variable {s : State}

/-- A phase has moved the operation on from `s` to `t`: along an arrow of R17's table, to a consistent state. Only
`Check` refuses (R178), and only three phases write `session` (R11). -/
structure Moves (s t : State) : Prop where
  arrow : t.phase ∈ phaseArrows s.phase
  consistent : Consistent t
  refused : isRefusal t.err = true → isRefusal s.err = true ∨ (s.phase = .check ∧ t.phase = .done)
  session : s.phase ∉ [Phase.wakeRead, .cleanup, .powerWrite] → t.session = s.session

/-- A phase changes nothing, because nothing is in flight or because its transport call has not returned; or it moves
the operation on. -/
def Advances (s : State) : Prop :=
  (tick s = s ∧ (s.phase = .idle ∨ (s.answers = [] ∧ s.phase ∈ transportPhases))) ∨ Moves s (tick s)

theorem Advances.of_waiting (ht : tick s = s) (ha : s.answers = []) (hp : s.phase ∈ transportPhases) : Advances s :=
  .inl ⟨ht, .inr ⟨ha, hp⟩⟩

/-- The operation in flight before a phase that does not deliver is in flight after it. -/
theorem Consistent.inFlight_tick (h : Consistent s) (hi : s.phase ≠ .idle) (hd : s.phase ≠ .done) :
    InFlight s.op (tick s) :=
  (h.inFlight hi).keep (tick_keepsRequest hd)

/-! ### Check -/

/-- What `Check` of an operation that is no command does (R17): it is done, with an error and no result or with a
result; `session` is as before. -/
theorem tick_check_pure (hp : s.phase = .check) (hc : isCommand s.op = false) :
    (tick s).phase = .done ∧ (tick s).session = s.session ∧
      (s.err = none → s.result = none → (tick s).err ≠ none → (tick s).result = none) := by
  simp only [tick, hp, phaseCheck]
  cases ho : s.op with
  | none => exact ⟨rfl, by simp, fun he hr _ => by simp [raise_result, hr]⟩
  | some i =>
    cases i
    case encode o p q l =>
      dsimp only [checkEncode]
      split
      · exact ⟨rfl, by simp, fun _ hr _ => by simp [raise_result, hr]⟩
      · rename_i hb
        obtain rfl := buildFrame_some hb
        exact ⟨rfl, rfl, fun he _ h => absurd he h⟩
    case decode bytes =>
      dsimp only [checkDecode]
      split
      · exact ⟨rfl, by simp, fun _ hr _ => by simp [raise_result, hr]⟩
      · exact ⟨rfl, by simp, fun he _ h => absurd he (by simpa using h)⟩
    case checksum bytes => exact ⟨rfl, rfl, fun he _ h => absurd he h⟩
    case classify code => exact ⟨rfl, rfl, fun he _ h => absurd he h⟩
    case wake => exact ⟨rfl, rfl, fun he _ h => absurd he h⟩
    case idle => exact ⟨rfl, rfl, fun he _ h => absurd he h⟩
    case sleep => exact ⟨rfl, rfl, fun he _ h => absurd he h⟩
    all_goals simp [ho, isCommand] at hc

/-- Everything the operand checks of a command can do (R132): a refusal, the wake handshake, or the exchange. -/
theorem checkCommand_cases (he : s.err = none) :
    (∃ reason, checkCommand s = { s with err := some (.refused reason), result := none, phase := .done }) ∨
    (s.cmd.payload.length ≤ maxPayload ∧ s.cmd.autoWake = true ∧ checkCommand s = s.goto .wakeWrite) ∨
    (s.cmd.payload.length ≤ maxPayload ∧ s.session = .awake ∧ checkCommand s = s.goto .encode) := by
  rcases Nat.lt_or_ge 248 s.cmd.payload.length with hl | hl
  · exact .inl ⟨.payloadTooLong, by rw [checkCommand_long hl, raise_of_no_error he]; rfl⟩
  cases hw : s.cmd.autoWake with
  | true => exact .inr (.inl ⟨hl, rfl, checkCommand_wake hl hw⟩)
  | false =>
    by_cases hs : s.session = .awake
    · exact .inr (.inr ⟨hl, hs, checkCommand_awake hl hw hs⟩)
    · exact .inl ⟨.notAwake, by rw [checkCommand_notAwake hl hw hs, raise_of_no_error he]; rfl⟩

theorem Consistent.advances_check (h : Consistent s) (hp : s.phase = .check) : Advances s := by
  have f := h.inFlight_tick (by simp [hp]) (by simp [hp])
  obtain ⟨he, hr⟩ := h.fresh (by simp [hp])
  refine .inr ?_
  cases hc : isCommand s.op with
  | false =>
    obtain ⟨hd, hs, hn⟩ := tick_check_pure hp hc
    have hw : autoWakes s.op ≠ true := fun hw => by rw [isCommand_of_autoWakes hw] at hc; cases hc
    exact ⟨by simp [hd, hp, phaseArrows], f.consistent_done hd (hn he hr) (absurd · hw), fun _ => .inr ⟨hp, hd⟩,
      fun _ => hs⟩
  | true =>
    have e := tick_check_command hp hc
    have hw := (h.inFlight (by simp [hp])).autoWake_eq hc
    rcases checkCommand_cases he with ⟨reason, hx⟩ | ⟨hl, ha, hx⟩ | ⟨hl, hs, hx⟩ <;> rw [hx] at e
    · exact ⟨by simp [e, hp, phaseArrows], f.consistent_done (by rw [e]) (by simp [e]) (by simp [e, isRefusal]),
        fun _ => .inr ⟨hp, by rw [e]⟩, by simp [e]⟩
    · exact ⟨by simp [e, hp, phaseArrows], f.consistent_wake (by simp [e, wakePhases]) (.inr (hw ▸ ha))
        (by simpa [e] using he) (by simpa [e] using hr) (by simpa [e] using fun _ => hl), by simp [e],
        by simp [e]⟩
    · exact ⟨by simp [e, hp, phaseArrows], f.consistent_exchange (by simp [e, exchangePhases]) hc
        (by simpa [e] using he) (by simpa [e] using hr) (by simpa [e] using hs) (by simpa [e] using hl)
        (by simp [e]) (by simp [e]), by simp [e], by simp [e]⟩

/-! ### The wake handshake -/

/-- In the wake handshake of WAKE or of an autoWake command: no error, no result, a payload that fits. -/
structure Waking (s : State) : Prop where
  op : s.op = some .wake ∨ autoWakes s.op = true
  err : s.err = none
  result : s.result = none
  payload : s.op ≠ some .wake → s.cmd.payload.length ≤ maxPayload
  flight : InFlight s.op (tick s)
  cmd : (tick s).cmd = s.cmd

theorem Consistent.waking (h : Consistent s) (hp : s.phase ∈ wakePhases) : Waking s := by
  have hi : s.phase ≠ .idle := by rintro hp'; simp [hp', wakePhases] at hp
  have hd : s.phase ≠ .done := by rintro hp'; simp [hp', wakePhases] at hp
  obtain ⟨he, hr⟩ := h.fresh (by simp [hp])
  exact ⟨(wakePhase_mem_phasesOf hp).1 (h.phase_mem hi), he, hr, h.payload (List.mem_append_left _ hp),
    h.inFlight_tick hi hd, (tick_keepsRequest hd).cmd⟩

theorem Waking.next (x : Waking s) (ha : (tick s).phase ∈ phaseArrows s.phase) (hp : (tick s).phase ∈ wakePhases)
    (he : (tick s).err = s.err) (hr : (tick s).result = s.result) (hs : (tick s).session = s.session) :
    Advances s :=
  .inr ⟨ha, x.flight.consistent_wake hp x.op (he.trans x.err) (hr.trans x.result) (by rw [x.cmd]; exact x.payload),
    fun h => .inl (he ▸ h), fun _ => hs⟩

theorem Consistent.advances_wakeWrite (h : Consistent s) (hp : s.phase = .wakeWrite) : Advances s := by
  have x := h.waking (by simp [hp, wakePhases])
  cases ha : s.answers with
  | nil => exact .of_waiting (tick_wakeWrite_nil hp ha) ha (by simp [hp, transportPhases])
  | cons a rest =>
    have e := tick_wakeWrite hp ha
    exact x.next (by simp [e, hp, phaseArrows]) (by simp [e, wakePhases]) (by rw [e]) (by rw [e]) (by rw [e])

theorem Consistent.advances_wakeSettle (h : Consistent s) (hp : s.phase = .wakeSettle) : Advances s := by
  have x := h.waking (by simp [hp, wakePhases])
  have e := tick_wakeSettle hp
  exact x.next (by simp [e, hp, phaseArrows]) (by simp [e, wakePhases]) (by rw [e]) (by rw [e]) (by rw [e])

/-- Everything the wake read can do (R114, R115), where it has returned: the handshake fails with one of two errors and
leaves `session` Faulted, or it succeeds and leaves it Awake. -/
theorem tick_wakeRead_cases {a : Answer} {rest : List Answer} (hp : s.phase = .wakeRead) (ha : s.answers = a :: rest)
    (he : s.err = none) :
    (∃ e acc rxbuf, (e = .wakeFailed ∨ ∃ n, e = .transport n) ∧
      tick s = { s.afterWakeRead a rest with
        session := .faulted, err := some e, result := none, acc := acc, rxbuf := rxbuf,
        phase := if s.op = some .wake then .done else .cleanup }) ∨
    ∃ acc rxbuf, tick s = { s.afterWakeRead a rest with
      session := .awake, acc := acc, rxbuf := rxbuf, phase := if s.op = some .wake then .done else .encode } := by
  cases ho : a.outcome 4 s.draws with
  | failed n => exact .inl ⟨_, _, _, .inr ⟨n, rfl⟩, tick_wakeRead_failed hp ha ho he⟩
  | got r =>
    cases hg : wakeReplyGood r with
    | false => exact .inl ⟨_, _, _, .inl rfl, tick_wakeRead_bad hp ha ho hg he⟩
    | true => exact .inr ⟨_, _, tick_wakeRead_good hp ha ho hg⟩

theorem Consistent.advances_wakeRead (h : Consistent s) (hp : s.phase = .wakeRead) : Advances s := by
  have x := h.waking (by simp [hp, wakePhases])
  cases ha : s.answers with
  | nil => exact .of_waiting (tick_wakeRead_nil hp ha) ha (by simp [hp, transportPhases])
  | cons a rest =>
    refine .inr ?_
    rcases tick_wakeRead_cases hp ha x.err with ⟨err, _, _, herr, e⟩ | ⟨_, _, e⟩
    · have hn : isRefusal (tick s).err = false := by rcases herr with rfl | ⟨n, rfl⟩ <;> rw [e] <;> rfl
      refine ⟨?_, ?_, by simp [hn], by simp [hp]⟩
      · by_cases hw : s.op = some .wake <;> simp [e, hp, hw, phaseArrows]
      · by_cases hw : s.op = some .wake
        · exact x.flight.consistent_done (by simp [e, hw]) (by simp [e]) (by simp [hw, autoWakes])
        · exact x.flight.consistent_cleanup (by simp [e, hw]) (x.op.resolve_left hw) (by simp [e]) (by simp [e])
    · have he : (tick s).err = none := by rw [e]; exact x.err
      have hr : (tick s).result = none := by rw [e]; exact x.result
      refine ⟨?_, ?_, by simp [he, isRefusal], by simp [hp]⟩
      · by_cases hw : s.op = some .wake <;> simp [e, hp, hw, phaseArrows]
      · by_cases hw : s.op = some .wake
        · exact x.flight.consistent_done (by simp [e, hw]) (fun _ => hr) (by simp [hw, autoWakes])
        · exact x.flight.consistent_exchange (by simp [e, hw, exchangePhases])
            (isCommand_of_autoWakes (x.op.resolve_left hw)) he hr (by rw [e]) (by rw [x.cmd]; exact x.payload hw)
            (by simp [e, hw]) (by simp [e, hw])

/-! ### The command exchange -/

/-- In the command exchange: a command, neither error nor result, from Awake, a payload that fits (R119, R132). -/
structure Exchanging (s : State) : Prop where
  command : isCommand s.op = true
  err : s.err = none
  result : s.result = none
  awake : s.session = .awake
  payload : s.cmd.payload.length ≤ maxPayload
  flight : InFlight s.op (tick s)
  cmd : (tick s).cmd = s.cmd

theorem Consistent.exchanging (h : Consistent s) (hp : s.phase ∈ exchangePhases) : Exchanging s := by
  have hi : s.phase ≠ .idle := by rintro hp'; simp [hp', exchangePhases] at hp
  have hd : s.phase ≠ .done := by rintro hp'; simp [hp', exchangePhases] at hp
  have hc := (exchangePhase_mem_phasesOf hp).1 (h.phase_mem hi)
  obtain ⟨he, hr⟩ := h.fresh (List.mem_append_right _ hp)
  exact ⟨hc, he, hr, h.awake hp, h.payload (List.mem_append_right _ hp) (ne_wake_of_isCommand hc),
    h.inFlight_tick hi hd, (tick_keepsRequest hd).cmd⟩

/-- The exchange goes on: neither error nor result, `session` untouched. -/
theorem Exchanging.next (x : Exchanging s) (ha : (tick s).phase ∈ phaseArrows s.phase)
    (hp : (tick s).phase ∈ exchangePhases) (he : (tick s).err = s.err) (hr : (tick s).result = s.result)
    (hs : (tick s).session = s.session)
    (hf : (tick s).phase = .cmdWrite →
      (tick s).txbuf = (s.op.bind readyFrame).getD (commandHead s.cmd ++ checksum (commandHead s.cmd)))
    (hd : (tick s).phase = .decode → (tick s).cfg.rxMode = .remainder →
      (tick s).rxbuf.head? = some (tick s).rxlen ∧ (tick s).rxbuf.length = max 1 (tick s).rxlen.toNat) :
    Advances s :=
  .inr ⟨ha, x.flight.consistent_exchange hp x.command (he.trans x.err) (hr.trans x.result) (hs.trans x.awake)
    (by rw [x.cmd]; exact x.payload) (by rw [x.cmd]; exact hf) hd, fun h => .inl (he ▸ h), fun _ => hs⟩

/-- The exchange ends, with an error or with data, and goes to the cleanup or to delivery (R139, R140). -/
theorem Exchanging.ends (x : Exchanging s) (hb : bodyExit s.cmd.autoWake ∈ phaseArrows s.phase)
    (hp : (tick s).phase = bodyExit s.cmd.autoWake) (hs : (tick s).session = s.session)
    (hn : isRefusal (tick s).err = false)
    (ho : ((tick s).err ≠ none ∧ (tick s).result = none) ∨
      ((tick s).err = none ∧ ∃ m r, (tick s).result = some (.bytes (m :: r)))) : Advances s :=
  .inr ⟨hp ▸ hb, x.flight.consistent_bodyExit x.command (by rw [x.cmd]; exact hp) ho, by simp [hn], fun _ => hs⟩

theorem bodyExit_eq (autoWake : Bool) : bodyExit autoWake = .cleanup ∨ bodyExit autoWake = .done := by
  cases autoWake <;> simp

theorem Consistent.advances_encode (h : Consistent s) (hp : s.phase = .encode) : Advances s := by
  have x := h.exchanging (by simp [hp, exchangePhases])
  cases hf : s.op.bind readyFrame with
  | some frame =>
    have e := tick_encode_ready hp hf
    exact x.next (by simp [e, hp, phaseArrows]) (by simp [e, exchangePhases]) (by rw [e]) (by rw [e]) (by rw [e])
      (by simp [e, hf]) (by simp [e])
  | none =>
    have e := tick_encode hp hf x.payload
    exact x.next (by simp [e, hp, phaseArrows]) (by simp [e, exchangePhases]) (by rw [e]) (by rw [e]) (by rw [e])
      (by simp [e, hf]) (by simp [e])

theorem Consistent.advances_cmdWrite (h : Consistent s) (hp : s.phase = .cmdWrite) : Advances s := by
  have x := h.exchanging (by simp [hp, exchangePhases])
  cases ha : s.answers with
  | nil => exact .of_waiting (tick_cmdWrite_nil hp ha) ha (by simp [hp, transportPhases])
  | cons a rest =>
    cases hk : a.failure with
    | none =>
      have e := tick_cmdWrite_ok hp ha hk
      exact x.next (by simp [e, hp, phaseArrows]) (by simp [e, exchangePhases]) (by rw [e]) (by rw [e]) (by rw [e])
        (by simp [e]) (by simp [e])
    | some n =>
      have e := tick_cmdWrite_failed hp ha hk x.err
      exact x.ends (by simp [hp, phaseArrows, bodyExit_eq]) (by rw [e]) (by rw [e]) (by simp [e, isRefusal])
        (.inl (by simp [e]))

theorem Consistent.advances_execWait (h : Consistent s) (hp : s.phase = .execWait) : Advances s := by
  have x := h.exchanging (by simp [hp, exchangePhases])
  have e := tick_execWait hp
  exact x.next (by simp [e, hp, phaseArrows]) (by simp [e, exchangePhases]) (by rw [e]) (by rw [e]) (by rw [e])
    (by simp [e]) (by simp [e])

theorem Consistent.advances_readLen (h : Consistent s) (hp : s.phase = .readLen) : Advances s := by
  have x := h.exchanging (by simp [hp, exchangePhases])
  cases ha : s.answers with
  | nil => exact .of_waiting (tick_readLen_nil hp ha) ha (by simp [hp, transportPhases])
  | cons a rest =>
    cases ho : a.outcome 1 s.draws with
    | failed n =>
      have e := tick_readLen_failed hp ha ho x.err
      exact x.ends (by simp [hp, phaseArrows, bodyExit_eq]) (by rw [e]) (by rw [e]; rfl) (by simp [e, isRefusal])
        (.inl (by simp [e]))
    | got r =>
      have e := tick_readLen_got hp ha ho
      exact x.next (by simp [e, hp, phaseArrows]) (by simp [e, exchangePhases]) (by rw [e]; rfl) (by rw [e]; rfl)
        (by rw [e]; rfl) (by simp [e]) (by simp [e])

/-- The frame that the remainder reading hands to the decoder (R137): the count byte and as many bytes as it says, or
the count byte alone. -/
theorem replyFrame_remainder {len : Byte} {r : List Byte}
    (hr : r.length = (bodyReadLength .remainder len).getD 0) :
    (replyFrame .remainder len r).head? = some len ∧ (replyFrame .remainder len r).length = max 1 len.toNat := by
  refine ⟨rfl, ?_⟩
  simp only [bodyReadLength] at hr
  simp only [replyFrame, List.length_cons]
  split at hr <;> simp only [Option.getD_some, Option.getD_none] at hr <;> omega

theorem Consistent.advances_readBody (h : Consistent s) (hp : s.phase = .readBody) : Advances s := by
  have x := h.exchanging (by simp [hp, exchangePhases])
  cases hn : bodyReadLength s.cfg.rxMode s.rxlen with
  | none =>
    have e := tick_readBody_none hp hn
    refine x.next (by simp [e, hp, phaseArrows]) (by simp [e, exchangePhases]) (by rw [e]) (by rw [e])
      (by rw [e]) (by simp [e]) fun _ hm => ?_
    rw [e] at hm ⊢
    dsimp only at hm ⊢
    rw [hm] at hn ⊢
    exact replyFrame_remainder (by simp [hn])
  | some n =>
    cases ha : s.answers with
    | nil => exact .of_waiting (tick_readBody_nil hp hn ha) ha (by simp [hp, transportPhases])
    | cons a rest =>
      cases ho : a.outcome n s.draws with
      | failed k =>
        have e := tick_readBody_failed hp hn ha ho x.err
        exact x.ends (by simp [hp, phaseArrows, bodyExit_eq]) (by rw [e]) (by rw [e]; rfl) (by simp [e, isRefusal])
          (.inl (by simp [e]))
      | got r =>
        have e := tick_readBody_got hp hn ha ho
        refine x.next (by simp [e, hp, phaseArrows]) (by simp [e, exchangePhases]) (by rw [e]; rfl)
          (by rw [e]; rfl) (by rw [e]; rfl) (by simp [e]) fun _ hm => ?_
        rw [e] at hm ⊢
        dsimp only [State.afterReply] at hm ⊢
        rw [hm] at hn ⊢
        exact replyFrame_remainder (by simp [hn, outcome_got_length ho])

theorem Consistent.advances_decode (h : Consistent s) (hp : s.phase = .decode) : Advances s := by
  have x := h.exchanging (by simp [hp, exchangePhases])
  cases hv : replyValue s.rxbuf with
  | error err =>
    have e := tick_decode_error hp hv x.err
    exact x.ends (by simp [hp, phaseArrows, bodyExit_eq]) (by rw [e]) (by simp [e])
      (by simpa [e] using replyValue_error_not_refusal hv) (.inl (by simp [e]))
  | ok data =>
    obtain ⟨m, r, rfl⟩ := replyValue_ok_cons hv
    have e := tick_decode_ok hp hv
    have he : (tick s).err = none := by simpa [e] using x.err
    exact x.ends (by simp [hp, phaseArrows, bodyExit_eq]) (by rw [e]) (by simp [e]) (by simp [he, isRefusal])
      (.inr ⟨he, m, r, by rw [e]⟩)

/-! ### Cleanup, interpretation, power writes, delivery -/

theorem Consistent.advances_cleanup (h : Consistent s) (hp : s.phase = .cleanup) : Advances s := by
  have f := h.inFlight_tick (by simp [hp]) (by simp [hp])
  cases ha : s.answers with
  | nil => exact .of_waiting (tick_cleanup_nil hp ha) ha (by simp [hp, transportPhases])
  | cons a rest =>
    have e := tick_cleanup hp ha
    have hr : isRefusal (tick s).err = true → isRefusal s.err = true := by rw [e]; exact id
    refine .inr ⟨?_, ?_, fun h => .inl (hr h), by simp [hp]⟩
    · cases hx : interprets s.op && s.err.isNone <;> simp [e, hp, hx, phaseArrows]
    cases hx : interprets s.op && s.err.isNone with
    | true =>
      rw [hx, if_pos rfl] at e
      obtain ⟨hop, he⟩ : interprets s.op = true ∧ s.err = none := by simpa using hx
      exact f.consistent_interpret (by rw [e]) hop (by simpa [e] using he)
        (by simpa [e] using h.outcome (.inl hp) he) (by rw [e])
    | false =>
      rw [hx] at e
      exact f.consistent_done (by simp [e]) (by simpa [e] using h.no_result) (by simp [e])

/-- Everything the interpretation can do (R150, R153): a result is put in place of the bytes, or INFO ends with
ShortResponse. -/
theorem tick_interpret_cases {m : Byte} {r : List Byte} (hp : s.phase = .interpret) (he : s.err = none)
    (hop : interprets s.op = true) (hr : s.result = some (.bytes (m :: r))) :
    (∃ v, tick s = { s with phase := .done, result := some v }) ∨
      tick s = { s with phase := .done, err := some .shortResponse, result := none } := by
  obtain ho | ho : s.op = some .selftest ∨ s.op = some .info := by
    revert hop; fun_cases interprets s.op <;> simp_all
  · exact .inl ⟨_, tick_interpret_selftest hp ho hr⟩
  · cases hx : infoExtract (m :: r) with
    | ok report => exact .inl ⟨_, tick_interpret_info_ok hp ho hr hx⟩
    | error err =>
      have hs : err = .shortResponse := by
        unfold infoExtract at hx; split at hx <;> cases hx; rfl
      exact .inr (hs ▸ tick_interpret_info_error hp ho hr hx he)

theorem Consistent.advances_interpret (h : Consistent s) (hp : s.phase = .interpret) : Advances s := by
  have f := h.inFlight_tick (by simp [hp]) (by simp [hp])
  have he := h.interpret hp
  have hop : interprets s.op = true := interpret_mem_phasesOf.1 (hp ▸ h.phase_mem (by simp [hp]))
  obtain ⟨m, r, hr⟩ := h.outcome (.inr hp) he
  have hs : autoWakes s.op = true → s.session = .sleeping := fun hw =>
    h.released (.inl hp) hw (by simp [he, isRefusal])
  rcases tick_interpret_cases hp he hop hr with ⟨v, e⟩ | e
  · exact .inr ⟨by simp [e, hp, phaseArrows],
      f.consistent_done (by rw [e]) (by simp [e, he]) (by simpa [e] using fun hw _ => hs hw),
      by simp [e, he, isRefusal], by simp [e]⟩
  · exact .inr ⟨by simp [e, hp, phaseArrows],
      f.consistent_done (by rw [e]) (by simp [e]) (by simpa [e] using fun hw _ => hs hw),
      by simp [e, isRefusal], by simp [e]⟩

theorem Consistent.advances_powerWrite (h : Consistent s) (hp : s.phase = .powerWrite) : Advances s := by
  have f := h.inFlight_tick (by simp [hp]) (by simp [hp])
  obtain ⟨he, hr⟩ := h.fresh (by simp [hp])
  cases ha : s.answers with
  | nil => exact .of_waiting (tick_powerWrite_nil hp ha) ha (by simp [hp, transportPhases])
  | cons a rest =>
    have e := tick_powerWrite hp ha he hr
    exact .inr ⟨by simp [e, hp, phaseArrows], f.consistent_done (by rw [e]) (by simp [e, hr]) (by simp [e]),
      by cases hf : a.failure <;> simp [e, hf, isRefusal], by simp [hp]⟩

theorem Consistent.advances_done (h : Consistent s) (hp : s.phase = .done) : Advances s := by
  have e := tick_done hp
  exact .inr ⟨by simp [e, hp, phaseArrows], e ▸ h.deliver, by rw [e]; exact .inl, by simp [e]⟩

/-- One phase, from any consistent state. -/
theorem Consistent.advances (h : Consistent s) : Advances s := by
  cases hp : s.phase with
  | idle => exact .inl ⟨tick_idle hp, .inl hp⟩
  | check => exact h.advances_check hp
  | wakeWrite => exact h.advances_wakeWrite hp
  | wakeSettle => exact h.advances_wakeSettle hp
  | wakeRead => exact h.advances_wakeRead hp
  | encode => exact h.advances_encode hp
  | cmdWrite => exact h.advances_cmdWrite hp
  | execWait => exact h.advances_execWait hp
  | readLen => exact h.advances_readLen hp
  | readBody => exact h.advances_readBody hp
  | decode => exact h.advances_decode hp
  | interpret => exact h.advances_interpret hp
  | cleanup => exact h.advances_cleanup hp
  | powerWrite => exact h.advances_powerWrite hp
  | done => exact h.advances_done hp

theorem consistent_tick (h : Consistent s) : Consistent (tick s) := by
  rcases h.advances with ⟨ht, -⟩ | hm
  · rwa [ht]
  · exact hm.consistent

theorem consistent_settle (h : Consistent s) : Consistent (settle s) :=
  settle_induction (P := Consistent) (fun _ => consistent_tick) h

/-- Settles O56: one phase of a consistent state waits or moves along an arrow of R17. -/
theorem phasesFollowArrows : Obligations.PhasesFollowArrows :=
  fun _ h => h.advances.imp id Moves.arrow

end Sys2Proof.Machine
end

-- ==== Proofs: one step of the block ====
section
/-! What a step does, said once: nothing, or a run of phases from the operation in flight or from an acceptance. -/

namespace Sys2Proof.Machine

variable {s t : State}

/-- Taking a held request changes the held list and, where there was a choice, the count of free values (R41). -/
theorem takeHeld_some {w : PortWord} {s' : State} (h : takeHeld s = some (w, s')) :
    s' = { s with held := s'.held, draws := s'.draws } := by
  unfold takeHeld at h
  split at h
  · cases h
  · cases h; rfl
  · split at h <;> cases h; rfl

/-- A block that is not busy accepts an instruction and runs it (R131). -/
theorem exec_of_not_busy (hb : s.busy = false) (i : Instr) : exec i s = .next (settle (latch (some i) s)) := by
  rw [exec_eq, perform_of_free hb]

theorem eq_settle_of_exec {i : Instr} (hb : s.busy = false) (h : exec i s = .next t) : t = settle (latch (some i) s) := by
  rw [exec_of_not_busy hb] at h
  cases h; rfl

/-- Everything a step can do: go on with the operation in flight, wait, or accept the request it takes, which names an
instruction or none. -/
theorem step_cases (h : step s = .next t) :
    (s.busy = true ∧ t = settle s) ∨ (s.busy = false ∧ t = s) ∨
      ∃ w s', s.busy = false ∧ takeHeld s = some (w, s') ∧ t = settle (latch (decode w).toOption s') := by
  unfold step at h
  cases hb : s.busy with
  | true => rw [hb] at h; cases h; exact .inl ⟨rfl, rfl⟩
  | false =>
    rw [hb] at h
    cases ht : takeHeld s with
    | none => rw [ht] at h; cases h; exact .inr (.inl ⟨rfl, rfl⟩)
    | some x =>
      obtain ⟨w, s'⟩ := x
      have hb' : s'.busy = false := by rw [takeHeld_some ht]; exact hb
      rw [ht] at h
      refine .inr (.inr ⟨w, s', rfl, rfl, ?_⟩)
      cases hd : decode w with
      | ok i => exact eq_settle_of_exec hb' (by simpa [hd] using h)
      | error e => simp only [hd] at h; cases h; rfl

/-- Settles O44: the unfolding of a step that takes a request. -/
theorem stepRunsDecodedInstruction : Obligations.StepRunsDecodedInstruction := by
  intro s s' w i hb ht hd
  simp [step, hb, ht, hd]

/-- Settles O50: the fields of the constructed state. -/
theorem resetValues : Obligations.ResetValues :=
  ⟨fun _ => ⟨rfl, rfl, rfl, rfl, rfl, rfl⟩, _, rfl⟩

/-- Settles O57: the constructed state is idle, with no error, so most of the invariant speaks of other phases. -/
theorem resetIsConsistent : Obligations.ResetIsConsistent := consistent_constructed

/-- Settles O58: acceptance makes a consistent state of any, and every phase keeps it consistent. -/
theorem stepKeepsConsistency : Obligations.StepKeepsConsistency := by
  intro s t hc h
  rcases step_cases h with ⟨-, rfl⟩ | ⟨-, rfl⟩ | ⟨w, s', -, -, rfl⟩
  · exact consistent_settle hc
  · exact hc
  · exact consistent_settle (consistent_latch ..)

/-! ### What a run of phases leaves alone -/

/-- The part of `Follows` that carries over from phase to phase: the configuration, the held requests and the latched
Command stand, the trace grows at its end, and answers are consumed from the front. -/
structure Extends (s t : State) : Prop where
  cfg : t.cfg = s.cfg
  held : t.held = s.held
  cmd : t.cmd = s.cmd
  trace : s.trace <+: t.trace
  answers : t.answers <:+ s.answers

/-- Acceptance aside, an operation leaves alone what every phase leaves alone. -/
theorem settle_extends (s : State) : Extends s (settle s) := by
  refine settle_induction (P := Extends s) (fun u hu => ?_) ⟨rfl, rfl, rfl, List.prefix_rfl, List.suffix_rfl⟩
  have hf := tick_follows u
  exact ⟨hf.cfg.trans hu.cfg, hf.held.trans hu.held, hf.cmd.trans hu.cmd, hu.trace.trans hf.trace,
    hf.answers.trans hu.answers⟩

/-- Settles O52: neither acceptance nor a phase writes the configuration. -/
theorem stepKeepsConfiguration : Obligations.StepKeepsConfiguration := by
  intro s t h
  rcases step_cases h with ⟨-, rfl⟩ | ⟨-, rfl⟩ | ⟨w, s', -, ht, rfl⟩
  · exact (settle_extends s).cfg
  · rfl
  · rw [(settle_extends _).cfg, latch_cfg, takeHeld_some ht]

/-! ### Deliveries -/

/-- Since a busy state that had delivered `before`: still in flight with nothing delivered, or idle again with one
delivery, which carries no error or no result (R63, R206). -/
def DeliversOnce (before : List Delivery) (t : State) : Prop :=
  (t.busy = true ∧ t.delivered = before) ∨
    (t.busy = false ∧ t.phase = .idle ∧ ∃ d, t.delivered = before ++ [d] ∧ (d.err = none ∨ d.result = none))

theorem deliver_deliversOnce (s : State) : DeliversOnce s.delivered s.deliver := by
  refine .inr ⟨rfl, rfl, _, rfl, ?_⟩
  cases s.err <;> simp

/-- A run of phases that begins in flight delivers at most once: delivery makes the block idle, and no phase follows. -/
theorem settle_deliversOnce (hb : s.busy = true) : DeliversOnce s.delivered (settle s) := by
  refine settle_induction (P := DeliversOnce s.delivered) ?_ (.inl ⟨hb, rfl⟩)
  rintro u (⟨hu, hd⟩ | hover)
  · rcases (tick_follows u).rest with ⟨hb', -, hd'⟩ | ⟨-, ht⟩
    · exact .inl ⟨hb'.trans hu, hd'.trans hd⟩
    · rw [ht, ← hd]
      exact deliver_deliversOnce u
  · rw [tick_idle hover.2.1]
    exact .inr hover

/-- What the statement about deliveries says of a run of phases. -/
theorem settle_delivers (hb : s.busy = true) :
    ((settle s).busy = true ∧ (settle s).delivered = s.delivered) ∨
      ((settle s).busy = false ∧ ∃ d, (settle s).delivered = s.delivered ++ [d] ∧ (d.err = none ∨ d.result = none)) :=
  (settle_deliversOnce hb).imp id fun ⟨hf, _, hd⟩ => ⟨hf, hd⟩

/-- The codes 1 to 8 of the result port are those of the eight error kinds in the order of R64. -/
theorem error_number_iff (e : Error) :
    e.number ≠ 0 ∧ (e.number = 1 ↔ ∃ n, e = .transport n) ∧ (e.number = 2 ↔ e = .frameTooShort) ∧
    (e.number = 3 ↔ e = .checksumMismatch) ∧ (e.number = 4 ↔ e = .wakeFailed) ∧
    (e.number = 5 ↔ ∃ code, e = .commandStatus code) ∧ (e.number = 6 ↔ ∃ code, e = .unknownStatus code) ∧
    (e.number = 7 ↔ e = .shortResponse) ∧ (e.number = 8 ↔ ∃ reason, e = .refused reason) := by
  cases e <;> simp [Error.number]

/-- Settles O54: acceptance delivers nothing, and the run of phases that follows delivers once or waits. -/
theorem oneDeliveryPerRequest : Obligations.OneDeliveryPerRequest := by
  refine ⟨fun s t i hb h => ?_, fun s t hb h => ?_, fun ⟨err, _⟩ => ?_⟩
  · rw [eq_settle_of_exec hb h]
    exact settle_delivers (latch_busy (some i) s)
  · obtain ⟨-, rfl⟩ : s.busy = true ∧ t = settle s := by simpa [hb] using step_cases h
    exact settle_delivers hb
  · cases err with
    | none => simp [Delivery.code]
    | some e => simpa [Delivery.code] using error_number_iff e

end Sys2Proof.Machine
end

-- ==== Proofs: a whole operation ====
section
/-! What one operation does to the block from its acceptance on, phase by phase: frames and the session. -/

namespace Sys2Proof.Machine

variable {s t : State} {op : Option Instr}

/-- An induction over the phases of one operation: what acceptance brings about, and every phase of that operation
keeps, holds when it has run. -/
theorem settle_latch_induction {P : State → Prop} (start : P (latch op s))
    (keep : ∀ u, Consistent u → u.op = op → u.phase ∈ phasesOf op → P u → P (tick u)) :
    P (settle (latch op s)) := by
  refine (settle_induction (P := fun u => Consistent u ∧ (u.phase ≠ .idle → u.op = op) ∧ P u) ?_
    ⟨consistent_latch op s, fun _ => rfl, start⟩).2.2
  rintro u ⟨hc, hop, hP⟩
  by_cases hi : u.phase = .idle
  · rw [tick_idle hi]
    exact ⟨hc, hop, hP⟩
  refine ⟨consistent_tick hc, fun hi' => ?_, keep u hc (hop hi) (hop hi ▸ hc.phase_mem hi) hP⟩
  have hd : u.phase ≠ .done := by rintro hd; rw [tick_done hd] at hi'; exact hi' rfl
  exact (tick_keepsRequest hd).op.trans (hop hi)

/-- A consistent block that is not busy is idle (R12). -/
theorem Consistent.phase_eq_idle (h : Consistent s) (hb : s.busy = false) : s.phase = .idle := by
  by_contra hp
  rw [h.busy_iff.2 hp] at hb
  cases hb

/-! ### WAKE, IDLE and SLEEP -/

/-- How WAKE ends (R114, R115). -/
def WakeEnds (t : State) : Prop :=
  (t.err = none ∧ t.session = .awake) ∨
    ((t.err = some .wakeFailed ∨ ∃ e, t.err = some (.transport e)) ∧ t.session = .faulted)

/-- What WAKE, begun in `s`, has done by state `u`: the frame buffer and the count byte stand, and where it is over, it
has ended as R114 and R115 say. -/
structure WakeFrom (s u : State) : Prop where
  txbuf : u.txbuf = s.txbuf
  rxlen : u.rxlen = s.rxlen
  ends : u.phase = .done ∨ u.phase = .idle → WakeEnds u

theorem settle_wakeFrom (s : State) : WakeFrom s (settle (latch (some .wake) s)) := by
  refine settle_latch_induction (P := WakeFrom s) ⟨rfl, rfl, by simp [firstPhase]⟩ ?_
  intro u hc _ hm h
  simp only [phasesOf, wakePhases, List.cons_append, List.nil_append, List.mem_cons, List.not_mem_nil,
    or_false] at hm
  rcases hm with hp | hp | hp | hp
  · cases ha : u.answers with
    | nil => rwa [tick_wakeWrite_nil hp ha]
    | cons a rest => rw [tick_wakeWrite hp ha]; exact ⟨h.txbuf, h.rxlen, by simp⟩
  · rw [tick_wakeSettle hp]; exact ⟨h.txbuf, h.rxlen, by simp⟩
  · have he := (hc.waking (by simp [hp, wakePhases])).err
    cases ha : u.answers with
    | nil => rwa [tick_wakeRead_nil hp ha]
    | cons a rest =>
      rcases tick_wakeRead_cases hp ha he with ⟨e, _, _, herr, ht⟩ | ⟨_, _, ht⟩ <;> rw [ht]
      · exact ⟨h.txbuf, h.rxlen, fun _ => .inr ⟨by simpa using herr, rfl⟩⟩
      · exact ⟨h.txbuf, h.rxlen, fun _ => .inl ⟨he, rfl⟩⟩
  · rw [tick_done hp]; exact ⟨h.txbuf, h.rxlen, fun _ => h.ends (.inl hp)⟩

/-- What IDLE or SLEEP, begun in `s`, has done by state `u`: every buffer, the accumulator and the count of free values
stand, and where it is over, the session is Sleeping (R116, R117). -/
structure PowerFrom (s u : State) : Prop where
  txbuf : u.txbuf = s.txbuf
  rxlen : u.rxlen = s.rxlen
  acc : u.acc = s.acc
  rxbuf : u.rxbuf = s.rxbuf
  draws : u.draws = s.draws
  ends : u.phase = .done ∨ u.phase = .idle → u.session = .sleeping

theorem settle_powerFrom {i : Instr} (hi : i = .idle ∨ i = .sleep) (s : State) :
    PowerFrom s (settle (latch (some i) s)) := by
  refine settle_latch_induction (P := PowerFrom s)
    ⟨rfl, rfl, rfl, rfl, rfl, by rcases hi with rfl | rfl <;> simp [firstPhase]⟩ ?_
  intro u hc _ hm h
  obtain hp | hp : u.phase = .powerWrite ∨ u.phase = .done := by
    rcases hi with rfl | rfl <;> simpa [phasesOf] using hm
  · obtain ⟨he, hr⟩ := hc.fresh (by simp [hp])
    cases ha : u.answers with
    | nil => rwa [tick_powerWrite_nil hp ha]
    | cons a rest =>
      rw [tick_powerWrite hp ha he hr]
      exact ⟨h.txbuf, h.rxlen, h.acc, h.rxbuf, h.draws, fun _ => rfl⟩
  · rw [tick_done hp]
    exact ⟨h.txbuf, h.rxlen, h.acc, h.rxbuf, h.draws, fun _ => h.ends (.inl hp)⟩

/-- Settles O36: acceptance and phases keep the configuration and the held requests (`settle_extends`); what else WAKE,
IDLE and SLEEP leave alone is in `settle_wakeFrom` and `settle_powerFrom`. -/
theorem transportOperationsFrame : Obligations.TransportOperationsFrame := by
  intro s t i hb h _
  obtain rfl := eq_settle_of_exec hb h
  have hx := settle_extends (latch (some i) s)
  refine ⟨hx.cfg, hx.held, hx.trace, hx.answers, fun hi => ?_, fun hi => ?_⟩
  · rw [hx.cmd]
    rcases hi with rfl | hi
    · have hw := settle_wakeFrom s
      exact ⟨rfl, hw.txbuf, hw.rxlen⟩
    · have hp := settle_powerFrom hi s
      exact ⟨by rcases hi with rfl | rfl <;> rfl, hp.txbuf, hp.rxlen⟩
  · have hp := settle_powerFrom hi s
    exact ⟨hp.acc, hp.rxbuf, hp.draws⟩

/-! ### The session through the other operations -/

/-- What an operation other than WAKE, IDLE and SLEEP has made of `session` by state `u`, when it began with the value
`x`: a refused one has changed nothing and is at its end, one without autoWake has changed nothing at all, and one with
autoWake that was not refused ends Sleeping (R119, R142). -/
structure SessionFrom (x : Session) (op : Option Instr) (u : State) : Prop where
  refused : isRefusal u.err = true → u.session = x ∧ (u.phase = .done ∨ u.phase = .idle)
  unchecked : u.phase = .check → u.session = x
  kept : autoWakes op = false → u.session = x
  released : u.phase = .idle → autoWakes op = true → isRefusal u.err = false → u.session = .sleeping

theorem check_not_mem_phaseArrows {p : Phase} (hp : p ≠ .idle) : Phase.check ∉ phaseArrows p := by
  cases p <;> simp [phaseArrows] at hp ⊢

theorem eq_done_of_idle_mem_phaseArrows {p : Phase} (h : Phase.idle ∈ phaseArrows p) : p = .done := by
  cases p <;> simp [phaseArrows] at h ⊢

/-- Delivery changes neither `session` nor `err`, so at the end the session is what it was before it. -/
theorem SessionFrom.deliver {x : Session} (h : SessionFrom x op s) (hc : Consistent s) (hop : s.op = op)
    (hp : s.phase = .done) : SessionFrom x op s.deliver where
  refused hr := ⟨(h.refused hr).1, .inr rfl⟩
  unchecked hp' := by cases hp'
  kept := h.kept
  released _ hw hr := hc.released (.inr hp) (hop ▸ hw) hr

/-- The phases that write `session` belong to WAKE, IDLE, SLEEP and the operations with autoWake. -/
theorem not_mem_sessionPhases {p : Phase} (hp : p ∈ phasesOf op) (hs : isSessionOp op = false)
    (hw : autoWakes op = false) : p ∉ [Phase.wakeRead, .cleanup, .powerWrite] := by
  simp only [List.mem_cons, List.not_mem_nil, or_false]
  rintro (rfl | rfl | rfl)
  · rcases (wakePhase_mem_phasesOf (by simp [wakePhases])).1 hp with rfl | hw'
    · cases hs
    · simp [hw] at hw'
  · simp [cleanup_mem_phasesOf, hw] at hp
  · rcases powerWrite_mem_phasesOf.1 hp with rfl | rfl <;> cases hs

theorem sessionFrom_tick {x : Session} (h : SessionFrom x op s) (hc : Consistent s) (hop : s.op = op)
    (hm : s.phase ∈ phasesOf op) (hs : isSessionOp op = false) : SessionFrom x op (tick s) := by
  have hi : s.phase ≠ .idle := by rintro hi; rw [hi] at hm; exact idle_not_mem_phasesOf hm
  by_cases hd : s.phase = .done
  · rw [tick_done hd]
    exact h.deliver hc hop hd
  rcases hc.advances with ⟨ht, -⟩ | hmove
  · rwa [ht]
  refine ⟨fun hr => ?_, fun hp => ?_, fun hw => ?_, fun hp => ?_⟩
  · rcases hmove.refused hr with hr' | ⟨hp, hp'⟩
    · exact absurd (h.refused hr').2 (by simp [hi, hd])
    · exact ⟨(hmove.session (by simp [hp])).trans (h.unchecked hp), .inl hp'⟩
  · exact absurd (hp ▸ hmove.arrow) (check_not_mem_phaseArrows hi)
  · exact (hmove.session (not_mem_sessionPhases hm hs hw)).trans (h.kept hw)
  · exact absurd (eq_done_of_idle_mem_phaseArrows (hp ▸ hmove.arrow)) hd

theorem settle_sessionFrom (hs : isSessionOp op = false) (s : State) :
    SessionFrom s.session op (settle (latch op s)) := by
  refine settle_latch_induction (P := SessionFrom s.session op) ⟨nofun, fun _ => rfl, fun _ => rfl, fun hi => ?_⟩
    fun u hc hop hm h => sessionFrom_tick h hc hop hm hs
  exact absurd hi ((consistent_latch op s).busy_iff.1 rfl)

/-- Settles O60: `settle_wakeFrom` and `settle_powerFrom` for the three session operations, `settle_sessionFrom` for every
other one. -/
theorem sessionTransitions : Obligations.SessionTransitions := by
  refine ⟨fun s t i hb h => ?_, fun _ => rfl, fun x => by cases x <;> simp [Session.number]⟩
  obtain rfl := eq_settle_of_exec hb h
  refine ⟨fun hbusy => by simp [State.statusPort, hbusy], fun hfree => ?_⟩
  have hp := (consistent_settle (consistent_latch (some i) s)).phase_eq_idle hfree
  refine ⟨by simp [State.statusPort, hfree], ?_, fun hi => ?_, fun hwake hidle hsleep => ?_⟩
  · rintro rfl
    exact (settle_wakeFrom s).ends (.inr hp)
  · exact (settle_powerFrom hi s).ends (.inr hp)
  · have hs : isSessionOp (some i) = false := by cases i <;> simp_all [isSessionOp]
    have h := settle_sessionFrom hs s
    split
    · rename_i hw
      exact h.released hp hw.1 hw.2
    · rename_i hw
      cases ha : autoWakes (some i) with
      | false => exact h.kept ha
      | true => exact (h.refused (by simpa [ha] using hw)).1

/-! ### The pure operations -/

/-- An operation that is no command and no session operation does its work in `Check` and is delivered. -/
theorem settle_latch_pure (hc : isCommand op = false) (hs : isSessionOp op = false) (s : State) :
    settle (latch op s) = (phaseCheck (latch op s)).deliver := by
  have hp : (latch op s).phase = .check := by
    cases op with
    | none => rfl
    | some i =>
      cases i
      case wake => cases hs
      case idle => cases hs
      case sleep => cases hs
      all_goals rfl
  have ht : tick (latch op s) = phaseCheck (latch op s) := by simp only [tick, hp]
  refine settle_eq (n := 2) (by decide) ?_ (tick_deliver _)
  rw [ticks_succ, ticks_succ, ticks_zero, tick_done (tick_check_pure hp hc).1, ht]

theorem settle_checksum (bytes : List Byte) (s : State) :
    settle (latch (some (.checksum bytes)) s) =
      { s.ended none (some (.bytes (checksum bytes))) with acc := crcBytes 0 bytes } := by
  rw [settle_latch_pure rfl rfl]; rfl

theorem settle_classify (code : Byte) (s : State) :
    settle (latch (some (.classify code)) s) = s.ended none (some (.classified (classification code))) := by
  rw [settle_latch_pure rfl rfl]; rfl

theorem settle_decode_ok {bytes : List Byte} {d : Decoded} (h : decodeReply bytes = .ok d) (s : State) :
    settle (latch (some (.decode bytes)) s) =
      { s.ended none (some (.decoded d)) with
        acc := if bytes.length < 4 then s.acc else crcBytes 0 (frameBody bytes) } := by
  rw [settle_latch_pure rfl rfl]
  simp only [phaseCheck, latch, checkDecode, h, State.sumReply]
  split <;> rfl

theorem settle_decode_error {bytes : List Byte} {e : Error} (h : decodeReply bytes = .error e) (s : State) :
    settle (latch (some (.decode bytes)) s) =
      { s.ended (some e) none with
        acc := if bytes.length < 4 then s.acc else crcBytes 0 (frameBody bytes) } := by
  rw [settle_latch_pure rfl rfl]
  simp only [phaseCheck, latch, checkDecode, h, State.sumReply]
  split <;> rfl

section
variable {o p : Byte} {q : Byte × Byte} {l : List Byte} {c : Cmd} (hc : c = ⟨o, p, q, l, false⟩)
include hc

theorem settle_encode_fits (h : l.length ≤ 248) (s : State) :
    settle (latch (some (.encode o p q l)) s) =
      { s.ended none (some (.bytes (commandHead c ++ checksum (commandHead c)))) with
        cmd := c, acc := crcBytes 0 (commandHead c), txbuf := commandHead c ++ checksum (commandHead c) } := by
  subst hc
  have hb := buildFrame_of_fits (s := latch (some (.encode o p q l)) s) h
  rw [settle_latch_pure rfl rfl]
  show (checkEncode (latch (some (.encode o p q l)) s)).deliver = _
  rw [checkEncode, hb]; rfl

theorem settle_encode_long (h : 248 < l.length) (s : State) :
    settle (latch (some (.encode o p q l)) s) =
      { s.ended (some (.refused .payloadTooLong)) none with cmd := c } := by
  subst hc
  have hb := buildFrame_of_long (s := latch (some (.encode o p q l)) s) h
  rw [settle_latch_pure rfl rfl]
  show (checkEncode (latch (some (.encode o p q l)) s)).deliver = _
  rw [checkEncode, hb]; rfl

end

/-- The state in which a pure operation begun in `s` has ended: an error, a result and the three elements of the Codec
and the Checksum Engine that it may write. -/
def State.pureEnd (s : State) (err : Option Error) (result : Option Result) (acc : Word) (cmd : Cmd)
    (txbuf : List Byte) : State :=
  { s.ended err result with acc := acc, cmd := cmd, txbuf := txbuf }

/-- A pure operation ends with values that do not depend on the session it began with (R23, D18); only ENCODE gives
`cmd` and `txbuf` new ones, and CLASSIFY leaves the accumulator (R80, R90, R92, R97). -/
theorem settle_pureEnd {i : Instr} (hc : isCommand (some i) = false) (hs : isSessionOp (some i) = false) (s : State) :
    ∃ err result acc cmd txbuf,
      (∀ x : Session, settle (latch (some i) { s with session := x }) =
        { s with session := x }.pureEnd err result acc cmd txbuf) ∧
      ((∀ o p q l, i ≠ .encode o p q l) → cmd = s.cmd ∧ txbuf = s.txbuf) ∧
      ((∃ code, i = .classify code) → acc = s.acc) := by
  cases i
  case checksum bytes =>
    exact ⟨_, _, _, _, _, fun x => settle_checksum bytes _, fun _ => ⟨rfl, rfl⟩, by simp⟩
  case classify code =>
    exact ⟨_, _, _, _, _, fun x => settle_classify code _, fun _ => ⟨rfl, rfl⟩, fun _ => rfl⟩
  case decode bytes =>
    cases hd : decodeReply bytes with
    | ok d =>
      exact ⟨_, _, if bytes.length < 4 then s.acc else crcBytes 0 (frameBody bytes), _, _,
        fun x => settle_decode_ok hd _, fun _ => ⟨rfl, rfl⟩, by simp⟩
    | error e =>
      exact ⟨_, _, if bytes.length < 4 then s.acc else crcBytes 0 (frameBody bytes), _, _,
        fun x => settle_decode_error hd _, fun _ => ⟨rfl, rfl⟩, by simp⟩
  case encode o p q l =>
    rcases Nat.lt_or_ge 248 l.length with h | h
    · exact ⟨_, _, _, _, _, fun x => settle_encode_long rfl h _, fun hn => absurd rfl (hn o p q l), by simp⟩
    · exact ⟨_, _, _, _, _, fun x => settle_encode_fits rfl h _, fun hn => absurd rfl (hn o p q l), by simp⟩
  case wake => cases hs
  case idle => cases hs
  case sleep => cases hs
  all_goals cases hc

/-- Settles O19: the end state of a pure operation names what it writes (`settle_pureEnd`). -/
theorem pureOperationsFrame : Obligations.PureOperationsFrame := by
  intro s t i hb hi h
  obtain rfl := eq_settle_of_exec hb h
  have hpure : isCommand (some i) = false ∧ isSessionOp (some i) = false := by
    rcases hi with ⟨_, rfl⟩ | ⟨_, _, _, _, rfl⟩ | ⟨_, rfl⟩ | ⟨_, rfl⟩ <;> exact ⟨rfl, rfl⟩
  obtain ⟨err, result, acc, cmd, txbuf, hx, hcmd, hacc⟩ := settle_pureEnd hpure.1 hpure.2 s
  rw [show settle (latch (some i) s) = s.pureEnd err result acc cmd txbuf from hx s.session]
  refine ⟨rfl, rfl, rfl, rfl, rfl, rfl, rfl, rfl, hcmd, hacc, fun x => ?_⟩
  rw [exec_of_not_busy (s := { s with session := x }) hb, hx x]
  rfl

end Sys2Proof.Machine
end

-- ==== Proofs: runs ====
section
/-! An operation settles within the longest path of R17, and goes on from where it waits as if the inputs that came
since had been there when it was accepted (R205). -/

namespace Sys2Proof.Machine

variable {s t : State}

/-- How many phases of R17's table an operation can still pass through: every arrow leads to fewer. -/
def phaseRank (p : Phase) : Nat :=
  match p with
  | .idle => 0
  | .done => 1
  | .interpret | .powerWrite => 2
  | .cleanup => 3
  | .decode => 4
  | .readBody => 5
  | .readLen => 6
  | .execWait => 7
  | .cmdWrite => 8
  | .encode => 9
  | .wakeRead => 10
  | .wakeSettle => 11
  | .wakeWrite => 12
  | .check => 13

theorem phaseRank_le (p : Phase) : phaseRank p ≤ longestPath := by
  cases p <;> decide

theorem phaseRank_lt_of_arrow {p q : Phase} (hp : p ≠ .idle) (h : q ∈ phaseArrows p) :
    phaseRank q < phaseRank p := by
  revert q
  cases p
  case idle => exact absurd rfl hp
  all_goals simp [phaseArrows, phaseRank]

/-- A phase of a consistent state changes nothing or brings delivery nearer. -/
theorem Consistent.tick_eq_or_rank_lt (h : Consistent s) :
    tick s = s ∨ phaseRank (tick s).phase < phaseRank s.phase := by
  by_cases hi : s.phase = .idle
  · exact .inl (tick_idle hi)
  · exact h.advances.imp And.left fun hm => phaseRank_lt_of_arrow hi hm.arrow

/-- As many phases as the rank says lead to a state that no phase changes. -/
theorem Consistent.tick_ticks {n : Nat} (h : Consistent s) (hn : phaseRank s.phase ≤ n) :
    tick (ticks n s) = ticks n s := by
  induction n generalizing s with
  | zero => exact h.tick_eq_or_rank_lt.resolve_right (by omega)
  | succ n ih =>
    rcases h.tick_eq_or_rank_lt with ht | hlt
    · rw [ticks_fixed ht, ht]
    · exact ih (consistent_tick h) (by omega)

theorem Consistent.tick_settle (h : Consistent s) : tick (settle s) = settle s :=
  h.tick_ticks (phaseRank_le _)

/-- Settling from any state on the way leads to the same end. -/
theorem Consistent.settle_ticks (h : Consistent s) (n : Nat) : settle (ticks n s) = settle s := by
  calc settle (ticks n s) = ticks (n + longestPath) s := (ticks_add n longestPath s).symm
    _ = ticks n (settle s) := by rw [Nat.add_comm, ticks_add]; rfl
    _ = settle s := ticks_fixed h.tick_settle n

/-- A busy state that no phase changes waits for a transport call that has not returned (R205). -/
theorem Consistent.waits (h : Consistent s) (hb : s.busy = true) (ht : tick s = s) :
    s.answers = [] ∧ s.phase ∈ transportPhases := by
  have hi := h.busy_iff.1 hb
  rcases h.advances with ⟨-, hi' | hw⟩ | hm
  · exact absurd hi' hi
  · exact hw
  · have := phaseRank_lt_of_arrow hi hm.arrow
    rw [ht] at this
    omega

/-- Answers that come after an operation has begun to wait, and other held requests, are as good as there from the
beginning (R42, R205; log entry 22). -/
theorem settle_withInputs_settle (late : List Answer) (held : List PortWord)
    (h : Consistent (s.withInputs late held)) :
    settle ((settle s).withInputs late held) = settle (s.withInputs late held) := by
  obtain ⟨k, hk⟩ : ∃ k, ticks k (s.withInputs late held) = (settle s).withInputs late held := by
    rcases ticks_withInputs s late held longestPath with hk | ⟨k, -, hk, -⟩
    · exact ⟨_, hk⟩
    · exact ⟨k, hk⟩
  rw [← hk, h.settle_ticks]

/-- A state in which an operation is in flight is that operation's own, begun by `exec` on a block that was not busy,
with the answers and the held requests that have come since. -/
def BegunByExec (s : State) : Prop :=
  s.busy = true → ∃ (s0 t : State) (i : Instr), s0.busy = false ∧ exec i s0 = .next t ∧ t.busy = true ∧
    s = { t with answers := s.answers, held := s.held }

theorem begunByExec_of_not_busy (hb : s.busy = false) : BegunByExec s := fun h => by simp [hb] at h

theorem begunByExec_exec {i : Instr} (hb : s.busy = false) : BegunByExec (settle (latch (some i) s)) :=
  fun ht => ⟨s, _, i, hb, exec_of_not_busy hb i, ht, rfl⟩

/-- Inputs from outside do not make another operation of the one in flight. -/
theorem BegunByExec.withInputs (h : BegunByExec s) (answers : List Answer) (held : List PortWord) :
    BegunByExec { s with answers := answers, held := held } := by
  intro hb
  obtain ⟨s0, t, i, h0, hx, ht, hs⟩ := h hb
  refine ⟨s0, t, i, h0, hx, ht, ?_⟩
  rw [hs]

/-- The step of a busy block goes on with the operation as `exec` would have, given the inputs that have come since. -/
theorem begunByExec_settle (h : BegunByExec s) (hb : s.busy = true) : BegunByExec (settle s) := by
  obtain ⟨s0, t, i, h0, hx, ht, hs⟩ := h hb
  obtain rfl := eq_settle_of_exec h0 hx
  have hc := consistent_latch (some i) s0
  have ha : (settle (latch (some i) s0)).answers = [] :=
    ((consistent_settle hc).waits ht hc.tick_settle).1
  have hs' : s = (settle (latch (some i) s0)).withInputs s.answers s.held := by
    rw [State.withInputs, ha]
    exact hs
  have hw : (latch (some i) s0).withInputs s.answers s.held = latch (some i) (s0.withInputs s.answers s.held) := rfl
  rw [hs', settle_withInputs_settle _ _ (hw ▸ consistent_latch ..), hw]
  exact begunByExec_exec h0

/-- A request that names no operation is over in the step that takes it (R62). -/
theorem settle_latch_none_busy (s : State) : (settle (latch none s)).busy = false := by
  rw [settle_latch_pure rfl rfl]; rfl

theorem begunByExec_step (hs : BegunByExec s) (h : step s = .next t) : BegunByExec t := by
  rcases step_cases h with ⟨hb, rfl⟩ | ⟨hb, rfl⟩ | ⟨w, s', hb, ht, rfl⟩
  · exact begunByExec_settle hs hb
  · exact hs
  · cases (decode w).toOption with
    | none => exact begunByExec_of_not_busy (settle_latch_none_busy s')
    | some i => exact begunByExec_exec (by rw [takeHeld_some ht]; exact hb)

/-- Everything an input from outside can do: the inputs at hand grow, or a block that is not busy is constructed. -/
theorem stimulate_cases {x : Stimulus} (h : stimulate x s = .next t) :
    (∃ answers held, t = { s with answers := answers, held := held }) ∨ ∃ cfg, t = s.rebuild cfg := by
  cases x with
  | present w => cases h; exact .inl ⟨_, _, rfl⟩
  | answer a => cases h; exact .inl ⟨_, _, rfl⟩
  | construct cfg =>
    cases hb : s.busy with
    | true => simp [stimulate, hb] at h
    | false => simp only [stimulate, hb] at h; cases h; exact .inr ⟨cfg, rfl⟩

/-- Settles O59: by induction on the run; steps and inputs keep both the invariant and what is known of the operation
in flight. -/
theorem reachableStatesAreConsistent : Obligations.ReachableStatesAreConsistent := by
  intro s h
  suffices hs : Consistent s ∧ BegunByExec s from hs
  induction h with
  | reset cfg => exact ⟨consistent_constructed cfg, begunByExec_of_not_busy rfl⟩
  | step s t _ hst ih => exact ⟨stepKeepsConsistency s t ih.1 hst, begunByExec_step ih.2 hst⟩
  | stimulus x s t _ hx ih =>
    rcases stimulate_cases hx with ⟨answers, held, rfl⟩ | ⟨cfg, rfl⟩
    · exact ⟨ih.1.outside held answers _ _ _, ih.2.withInputs answers held⟩
    · exact ⟨(consistent_constructed cfg).outside _ _ _ _ _, begunByExec_of_not_busy rfl⟩

end Sys2Proof.Machine
end

-- ==== Proofs: the request port ====
section
/-! Requests that meet the block: held while it is busy, one of them taken when it is not, and nothing of the operation
in flight depending on them (R41, R42, R206). -/

namespace Sys2Proof.Machine

variable {s : State}

/-! ### Holding and taking -/

/-- Settles O47: carried out on a busy block, and presented from outside, a request meets `hold`. -/
theorem busyBlockHoldsRequests : Obligations.BusyBlockHoldsRequests := by
  refine ⟨fun s i hb => ?_, fun s w => rfl⟩
  rw [exec_eq, perform_of_busy hb, hold]

/-- What `takeAt` gives at an index of the list: the entry there, and what stands before and behind it. -/
theorem takeAt_of_lt {held : List PortWord} {k : Nat} (hk : k < held.length) :
    takeAt k held = some (held[k], held.take k ++ held.drop (k + 1)) := by
  simp [takeAt, hk, List.eraseIdx_eq_take_drop_succ]

/-- Of two or more held requests one is taken, at an index that the free value decides (R41; log entry 4). -/
theorem takeHeld_of_two {w v : PortWord} {ws : List PortWord} (h : s.held = w :: v :: ws) :
    ∃ (k : Nat) (hk : k < s.held.length), takeHeld s =
      some (s.held[k], { s with held := s.held.take k ++ s.held.drop (k + 1), draws := s.draws + 1 }) := by
  have hk : Config.pickHeld s.draws % s.held.length < s.held.length := Nat.mod_lt _ (by simp [h])
  refine ⟨_, hk, ?_⟩
  have ht := takeAt_of_lt hk
  simp only [h] at ht ⊢
  simp only [takeHeld, h, ht]

/-- Settles O45: by the number of requests held, none, one or more. -/
theorem anyHeldRequestIsTaken : Obligations.AnyHeldRequestIsTaken := by
  refine ⟨fun s h => by simp [takeHeld, h], fun s hne => ?_, fun s w h => by simp [takeHeld, h]⟩
  match h : s.held with
  | [] => exact absurd h hne
  | [w] => exact ⟨w, [], [], s.draws, rfl, by simp [takeHeld, h]⟩
  | w :: v :: ws =>
    obtain ⟨k, hk, ht⟩ := takeHeld_of_two h
    refine ⟨s.held[k], s.held.take k, s.held.drop (k + 1), s.draws + 1, ?_, ht⟩
    rw [← h, ← List.drop_eq_getElem_cons hk, List.take_append_drop]

/-! ### The operation in flight -/

/-- With no further answer, only the held requests are other. -/
theorem withInputs_nil (s : State) (held : List PortWord) : s.withInputs [] held = { s with held := held } := by
  simp [State.withInputs]

@[simp] theorem withInputs_nil_self (s : State) : s.withInputs [] s.held = s := withInputs_nil s s.held

@[simp] theorem withInputs_nil_nil (s : State) (held held' : List PortWord) :
    (s.withInputs [] held).withInputs [] held' = s.withInputs [] held' := by
  simp [State.withInputs]

/-- A phase does the same whatever is held, and leaves it as it is (R42). Where it waits with the one list, putting
that list back in place of the other says that it waits with the other too. -/
theorem tick_withHeld (s : State) (held : List PortWord) :
    tick (s.withInputs [] held) = (tick s).withInputs [] held := by
  rcases tick_withInputs s [] held with h | ⟨hs, -, -⟩
  · exact h
  · rcases tick_withInputs (s.withInputs [] held) [] s.held with hback | ⟨hs', -, -⟩
    · have hheld : (tick (s.withInputs [] held)).held = held := (tick_follows _).held
      rw [withInputs_nil_nil, withInputs_nil_self] at hback
      calc tick (s.withInputs [] held) = (tick (s.withInputs [] held)).withInputs [] held := by
            simpa only [hheld] using (withInputs_nil_self (tick (s.withInputs [] held))).symm
        _ = (tick s).withInputs [] held := by rw [hback, withInputs_nil_nil]
    · rw [hs, hs']

theorem ticks_withHeld (n : Nat) (s : State) (held : List PortWord) :
    ticks n (s.withInputs [] held) = (ticks n s).withInputs [] held := by
  induction n generalizing s with
  | zero => rfl
  | succ n ih => rw [ticks_succ, ticks_succ, tick_withHeld, ih]

/-- A step of a busy block goes on with the operation in flight (R205). -/
theorem step_of_busy (hb : s.busy = true) : step s = .next (settle s) := by
  simp [step, hb]

/-- Settles O49: the step of a busy block is a run of phases, none of which depends on what is held. -/
theorem inFlightIgnoresRequestPort : Obligations.InFlightIgnoresRequestPort := by
  intro s t held hb h
  rw [step_of_busy hb] at h
  cases h
  rw [← withInputs_nil, ← withInputs_nil, step_of_busy (by simpa using hb)]
  exact congrArg _ (ticks_withHeld longestPath s held)

/-! ### The records -/

/-- A run of phases in flight only appends to the trace and to the deliveries, and consumes answers from the front. -/
theorem settle_records (hb : s.busy = true) :
    s.trace <+: (settle s).trace ∧ s.delivered <+: (settle s).delivered ∧ (settle s).answers <:+ s.answers := by
  refine ⟨(settle_extends s).trace, ?_, (settle_extends s).answers⟩
  rcases settle_delivers hb with ⟨-, hd⟩ | ⟨-, d, hd, -⟩
  · rw [hd]
  · exact hd ▸ List.prefix_append ..

theorem takeHeld_keepsRecords {w : PortWord} {s' : State} (h : takeHeld s = some (w, s')) :
    s'.trace = s.trace ∧ s'.delivered = s.delivered ∧ s'.answers = s.answers := by
  rw [takeHeld_some h]
  exact ⟨rfl, rfl, rfl⟩

/-- Settles O53: taking and accepting a request touches none of the records, and the phases only extend them. -/
theorem recordsOnlyGrow : Obligations.RecordsOnlyGrow := by
  intro s t h
  rcases step_cases h with ⟨hb, rfl⟩ | ⟨-, rfl⟩ | ⟨w, s', -, ht, rfl⟩
  · exact settle_records hb
  · exact ⟨List.prefix_rfl, List.prefix_rfl, List.suffix_rfl⟩
  · obtain ⟨htr, hde, han⟩ := takeHeld_keepsRecords ht
    have hr := settle_records (latch_busy (decode w).toOption s')
    rwa [latch_trace, latch_delivered, latch_answers, htr, hde, han] at hr

end Sys2Proof.Machine
end

-- ==== Proofs: the request port's encoding ====
section
/-! What can be presented and what it means: the selectors of R61, the wire frames of R67, and the refusal of everything
else (R62). -/

namespace Sys2Proof.Machine

/-! ### The frame port -/

/-- Only the two frames of R67 name an instruction. -/
theorem decodeFrame_ok {bytes : List Byte} {i : Instr} (h : decodeFrame bytes = .ok i) :
    ∃ opcode lo hi, (bytes = selftestFrameBytes opcode lo hi ∧ i = .selftestFrame opcode lo hi) ∨
      (bytes = infoFrameBytes opcode lo hi ∧ i = .infoFrame opcode lo hi) := by
  unfold decodeFrame at h
  split at h
  next count opcode param1 param20 param21 lo hi =>
    split at h
    next hfixed =>
      obtain ⟨rfl, rfl, rfl⟩ := hfixed
      refine ⟨opcode, lo, hi, ?_⟩
      split at h
      next hparam => cases h; exact .inl ⟨by rw [hparam]; rfl, rfl⟩
      next =>
        split at h
        next hparam => cases h; exact .inr ⟨by rw [hparam]; rfl, rfl⟩
        next => cases h
    next => cases h
  next => cases h

/-- Other bytes are rejected by one name (log entry 8). -/
theorem decodeFrame_error {bytes : List Byte} {e : DecodeError} (h : decodeFrame bytes = .error e) :
    e = .notACommandFrame := by
  unfold decodeFrame at h
  split at h
  · split at h
    · split at h
      · cases h
      · split at h
        · cases h
        · cases h; rfl
    · cases h; rfl
  · cases h; rfl

theorem encode_of_decodeFrame {bytes : List Byte} {i : Instr} (h : decodeFrame bytes = .ok i) :
    encode i = .frame bytes := by
  obtain ⟨opcode, lo, hi, ⟨rfl, rfl⟩ | ⟨rfl, rfl⟩⟩ := decodeFrame_ok h <;> rfl

/-! ### The request port -/

/-- The selectors of R61. -/
def selectors : List Byte := [0x01, 0x02, 0x03, 0x04, 0x10, 0x11, 0x12, 0x20, 0x30, 0x31]

theorem decodeRequest_of_not_mem {selector : Byte} (h : selector ∉ selectors) (o : Operands) :
    decodeRequest selector o = .error (.unknownOp selector) := by
  simp only [selectors, List.mem_cons, List.not_mem_nil, or_false, not_or] at h
  simp only [decodeRequest, h, if_false]

/-- Each selector reads the ports of its row, and its encoding writes just these. -/
theorem encode_of_decodeRequest {selector : Byte} {o : Operands} {i : Instr} (h : decodeRequest selector o = .ok i) :
    encode i = .request selector (listedPorts selector o) := by
  by_cases hs : selector ∈ selectors
  · simp only [selectors, List.mem_cons, List.not_mem_nil, or_false] at hs
    rcases hs with rfl | rfl | rfl | rfl | rfl | rfl | rfl | rfl | rfl | rfl <;> cases h <;> rfl
  · rw [decodeRequest_of_not_mem hs] at h
    cases h

/-- Settles O1: the bits of each row, cut into bytes, are read by the decoder. -/
theorem tableWordsDecode : Obligations.TableWordsDecode :=
  ⟨rfl, rfl, rfl, rfl, rfl, rfl, rfl, rfl, rfl, rfl, rfl, rfl, rfl⟩

/-- Settles O2, by the round trip of each operation. -/
theorem decodeOfEncodeIsIdentity : Obligations.DecodeOfEncodeIsIdentity
  | .checksum bytes => Laws.RoundTrip.checksum bytes
  | .encode opcode param1 param2 payload => Laws.RoundTrip.encode opcode param1 param2 payload
  | .decode bytes => Laws.RoundTrip.decode bytes
  | .classify code => Laws.RoundTrip.classify code
  | .wake => Laws.RoundTrip.wake
  | .idle => Laws.RoundTrip.idle
  | .sleep => Laws.RoundTrip.sleep
  | .execute opcode param1 param2 payload autoWake =>
    Laws.RoundTrip.execute opcode param1 param2 payload autoWake
  | .selftest => Laws.RoundTrip.selftest
  | .info => Laws.RoundTrip.info
  | .selftestFrame opcode lo hi => Laws.RoundTrip.selftestFrame opcode lo hi
  | .infoFrame opcode lo hi => Laws.RoundTrip.infoFrame opcode lo hi

/-- Settles O3, port by port. -/
theorem decodedWordsEncodeBack : Obligations.DecodedWordsEncodeBack :=
  ⟨fun _ _ => encode_of_decodeFrame, fun _ _ _ => encode_of_decodeRequest⟩

/-- A request that names no operation passes `Check` and `Done`, and no more (R62). -/
theorem settle_unknown (s : State) : settle (latch none s) = s.ended (some (.refused .unknownOp)) none := by
  rw [settle_latch_pure rfl rfl]; rfl

/-- A block that takes a request that names no operation answers it (R62). -/
theorem step_of_decode_error {s s' : State} {w : PortWord} {e : DecodeError} (hb : s.busy = false)
    (ht : takeHeld s = some (w, s')) (hd : decode w = .error e) : step s = .next (performUnknown s') := by
  simp [step, hb, ht, hd]

/-- Settles O4: the decoder gives no instruction, and the step refuses. -/
theorem unknownSelectorIsRefused : Obligations.UnknownSelectorIsRefused := by
  refine ⟨fun selector o h => decodeRequest_of_not_mem h o, fun bytes h => ?_, fun s s' w e hb ht hd => ?_⟩
  · show decodeFrame bytes = _
    cases hd : decodeFrame bytes with
    | error e => rw [decodeFrame_error hd]
    | ok i =>
      obtain ⟨opcode, lo, hi, ⟨hbytes, -⟩ | ⟨hbytes, -⟩⟩ := decodeFrame_ok hd
      · exact absurd hbytes (h opcode lo hi).1
      · exact absurd hbytes (h opcode lo hi).2
  · rw [step_of_decode_error hb ht hd, performUnknown, settle_unknown]

end Sys2Proof.Machine
end

-- ==== Proofs: the layouts of frames, statuses and masks ====
section
/-! What the Packet Codec, the Status Taxonomy and the self-test mask say of single bytes and bits (R50 to R58, R65),
and the pure operations that deliver it. -/

namespace Sys2Proof.Machine

/-! ### Frames -/

/-- Settles O12: an encoded frame is `commandHead` and its checksum. -/
theorem encodedFramesDescribeThemselves : Obligations.EncodedFramesDescribeThemselves := by
  intro c frame h
  obtain ⟨hfits, rfl⟩ := encodeCommand_ok h
  have hlen : (commandHead c ++ checksum (commandHead c)).length = 7 + c.payload.length := by simp; omega
  refine ⟨hlen, by omega, fun count hcount => ?_, rfl, rfl, rfl, rfl, ?_, ?_⟩
  · cases hcount
    rw [hlen, BitVec.toNat_ofNat, Nat.mod_eq_of_lt (by omega)]
  · simp [commandHead]
  · rw [← commandHead_length, List.drop_left, List.take_left]

/-- The status that `decode` reports of a 4-byte frame is the byte after the count (R56). -/
theorem decodeReply_status {f : List Byte} {d : Decoded} (h : decodeReply f = .ok d) :
    d.status = if f.length = 4 then f[1]? else none := by
  obtain ⟨-, -, hdata, -, hstatus⟩ := decodeReply_ok h
  rw [hstatus, hdata]
  split
  next h4 => simp [frameBody, h4]
  next => rfl

/-- Settles O13, by what `decode` can answer. -/
theorem decodeDelivers : Obligations.DecodeDelivers := by
  intro s input hb
  rw [exec_of_not_busy hb, ← frameBody, ← frameCrc]
  cases hd : decodeReply input with
  | error e =>
    rw [settle_decode_error hd]
    obtain ⟨hshort, rfl⟩ | ⟨hlong, hcrc, rfl⟩ := decodeReply_error hd
    · rw [if_pos hshort, if_pos hshort]; rfl
    · rw [if_neg (by omega), if_neg (by omega), if_pos hcrc]
  | ok d =>
    obtain ⟨hlong, hcrc, hdata, -, -⟩ := decodeReply_ok hd
    have hvalue : d = ⟨(frameBody input).drop 1, if input.length = 4 then input[1]? else none⟩ := by
      rw [← hdata, ← decodeReply_status hd]
    rw [settle_decode_ok hd, if_neg (by omega), if_neg (by omega), if_neg (not_not_intro hcrc), hvalue]

/-! ### Statuses -/

/-- A table read from the top, with a default. -/
theorem getD_lookup_cons {α β : Type} [DecidableEq α] (a k : α) (v d : β) (t : List (α × β)) :
    (((k, v) :: t).lookup a).getD d = if a = k then v else (t.lookup a).getD d := by
  by_cases h : a = k
  · simp [h]
  · rw [List.lookup_cons, beq_eq_false_iff_ne.2 h, if_neg h]

/-- The taxonomy is the table of R57, and UnknownStatus outside it (R58). -/
theorem classify_eq_lookup (code : Byte) :
    classify code = (statusTable.lookup code).getD (.unknownStatus code) := by
  simp only [statusTable, getD_lookup_cons]; rfl

/-- The ten categories of the table are the known ones. -/
theorem known_classify (code : Byte) : (classify code).known = (statusTable.lookup code).isSome := by
  rw [classify_eq_lookup]
  cases h : statusTable.lookup code with
  | none => rfl
  | some c =>
    obtain ⟨above, below, htable, -⟩ := List.lookup_eq_some_iff.1 h
    have hrows : ∀ row ∈ statusTable, row.2.known = true := by decide
    exact hrows (code, c) (by simp [htable])

theorem hardFailure_eq (code : Byte) : hardFailure code =
    decide ((statusTable.lookup code).isNone ∨ (code ≠ 0x00 ∧ code ≤ 0x0F) ∨ code = 0xFF) := by
  rw [hardFailure, known_classify, Option.not_isSome, Bool.or_assoc, Bool.eq_iff_iff]
  simp

/-- The record of R97 in the terms of the status table. -/
theorem classification_eq (code : Byte) : classification code = {
      category := (statusTable.lookup code).getD (.unknownStatus code)
      nonErrorInExecute := decide (code = 0x00)
      nonErrorInWake := decide (code = 0x00 ∨ code = 0x11)
      hard := decide ((statusTable.lookup code).isNone ∨ (code ≠ 0x00 ∧ code ≤ 0x0F) ∨ code = 0xFF) } := by
  rw [classification, classify_eq_lookup, hardFailure_eq]
  simp only [nonErrorInExecute, nonErrorInWake, Bool.beq_eq_decide_eq, Bool.decide_or]

/-- Settles O17: CLASSIFY delivers the record of R97. -/
theorem classifyDelivers : Obligations.ClassifyDelivers := by
  intro s code hb
  rw [exec_of_not_busy hb, settle_classify, classification_eq]

/-! ### The self-test mask -/

theorem maskVerdict_twoPow (m : Byte) {k : Nat} (hk : k < 8) :
    maskVerdict m (BitVec.twoPow 8 k) = .fail ↔ m.getLsbD k = true := by
  have hne : BitVec.twoPow 8 k ≠ 0#8 := by
    intro h
    simpa [hk] using congrArg (·.getLsbD k) h
  unfold maskVerdict
  rw [BitVec.and_twoPow]
  cases m.getLsbD k <;> simp [hne]

/-- Settles O37: each verdict reads one bit of the mask. -/
theorem selftestMaskBits : Obligations.SelftestMaskBits := fun m =>
  ⟨maskVerdict_twoPow m (k := 5) (by decide), maskVerdict_twoPow m (k := 4) (by decide),
    maskVerdict_twoPow m (k := 3) (by decide), maskVerdict_twoPow m (k := 1) (by decide),
    maskVerdict_twoPow m (k := 0) (by decide), rfl⟩

end Sys2Proof.Machine
end

-- ==== Proofs: a command exchange that is answered ====
section
/-! The command exchange of R134 to R138 where the write is acknowledged and the reply decodes to data or to Success,
in the normative reading of the second reply read (D7). -/

namespace Sys2Proof.Machine

variable {s : State} {k : Answer} {len : Byte} {body data : List Byte} {rest : List Answer}

/-- Data, and the status Success, are what a reply gives the caller (R138). -/
theorem replyValue_of_decodeReply {f : List Byte} {status : Option Byte} (h : decodeReply f = .ok ⟨data, status⟩)
    (hs : status = none ∨ status = some 0x00) : replyValue f = .ok data := by
  rw [replyValue, h]
  rcases hs with rfl | rfl <;> rfl

theorem bodyReadLength_remainder (hlen : body.length + 1 = len.toNat) (hbody : 1 ≤ body.length) :
    bodyReadLength .remainder len = some body.length := by
  rw [bodyReadLength, if_pos (by omega), ← hlen, Nat.add_sub_cancel]

/-- The accumulator has run over the count byte and all of the body but its last two bytes (R92). -/
theorem sumReply_cons (h : 4 ≤ (len :: body).length) :
    s.sumReply (len :: body) = { s with acc := crcBytes 0 (len :: body.take (body.length - 2)) } := by
  have htake : (len :: body).length - 2 = body.length - 2 + 1 := by simp at h ⊢; omega
  rw [State.sumReply, if_neg (by omega), State.sum, frameBody, htake, List.take_succ_cons]

/-- The state in which an exchange has ended that wrote `txbuf` and read the reply `len :: body`. -/
def State.exchanged (s : State) (len : Byte) (body data : List Byte) (rest : List Answer) : State :=
  { s with
    result := some (.bytes data), rxlen := len, rxbuf := len :: body,
    acc := crcBytes 0 (len :: body.take (body.length - 2)), answers := rest, phase := bodyExit s.cmd.autoWake,
    trace := s.trace ++ sendEvents s.cfg s.txbuf (.got [len]) ++
      [.read (locate s.cfg s.cfg.cmdTarget) body.length (.got body)] }

/-- From the command write to the decoded reply: write, wait, length, rest, decode. -/
theorem ticks_exchange {status : Option Byte} (hp : s.phase = .cmdWrite) (hm : s.cfg.rxMode = .remainder)
    (ha : s.answers = k :: .bytes [len] :: .bytes body :: rest) (hk : k.failure = none)
    (hlen : body.length + 1 = len.toNat) (hbody : 1 ≤ body.length)
    (hd : decodeReply (len :: body) = .ok ⟨data, status⟩) (hs : status = none ∨ status = some 0x00) :
    ticks 5 s = s.exchanged len body data rest := by
  have hread : bodyReadLength s.cfg.rxMode len = some body.length := by rw [hm, bodyReadLength_remainder hlen hbody]
  have hframe : ∀ r, replyFrame s.cfg.rxMode len r = len :: r := by rw [hm]; exact fun _ => rfl
  have hvalue := replyValue_of_decodeReply hd hs
  have hone : ∀ draws, (Answer.bytes [len]).outcome 1 draws = .got [len] := outcome_bytes rfl
  have hrest : ∀ draws, (Answer.bytes body).outcome body.length draws = .got body := outcome_bytes rfl
  rw [ticks_succ, tick_cmdWrite_ok hp ha hk, ticks_succ, tick_execWait rfl, ticks_succ,
    tick_readLen_got rfl rfl (hone _), ticks_succ, tick_readBody_got rfl hread rfl (hrest _), ticks_succ,
    tick_decode_ok rfl (by simpa only [State.afterReply, List.headD_cons, hframe] using hvalue), ticks_zero]
  simp only [State.afterReply, List.headD_cons, hframe, sumReply_cons (decodeReply_ok hd).1]
  simp [State.exchanged, sendEvents, hone, hrest, drawn_bytes]

/-- What acceptance latches of an operation that has a Command (R14, R131). -/
theorem latch_of_commandOf {i : Instr} {c : Cmd} (hc : commandOf i s.cfg = some c) :
    latch (some i) s =
      { s with busy := true, op := some i, cmd := c, err := none, result := none, phase := firstPhase i } := by
  simp [latch, hc]

/-- A command without autoWake, begun Awake: whatever frame the encode step leaves in `txbuf` goes out as it stands,
and the decoded reply is delivered (R134 to R138). -/
theorem settle_fromAwake {i : Instr} {c : Cmd} {frame : List Byte} {acc : Word} {status : Option Byte}
    (hi : isCommand (some i) = true) (hf : firstPhase i = .check) (hc : commandOf i s.cfg = some c)
    (hl : c.payload.length ≤ 248) (hw : c.autoWake = false)
    (hencode : tick ((latch (some i) s).goto .encode) =
      { latch (some i) s with phase := .cmdWrite, txbuf := frame, acc := acc })
    (hm : s.cfg.rxMode = .remainder) (haw : s.session = .awake)
    (ha : s.answers = k :: .bytes [len] :: .bytes body :: rest) (hk : k.failure = none)
    (hlen : body.length + 1 = len.toNat) (hbody : 1 ≤ body.length)
    (hd : decodeReply (len :: body) = .ok ⟨data, status⟩) (hs : status = none ∨ status = some 0x00) :
    settle (latch (some i) s) =
      { s.ended none (some (.bytes data)) with
        cmd := c, txbuf := frame, rxlen := len, rxbuf := len :: body,
        acc := crcBytes 0 (len :: body.take (body.length - 2)), answers := rest,
        trace := s.trace ++ sendEvents s.cfg frame (.got [len]) ++
          [.read (locate s.cfg s.cfg.cmdTarget) body.length (.got body)] } := by
  have hcheck : tick (latch (some i) s) = (latch (some i) s).goto .encode := by
    rw [tick_check_command hf hi]
    exact checkCommand_awake (by simpa [hc] using hl) (by simpa [hc] using hw) haw
  have hexchange := ticks_exchange (s := { latch (some i) s with phase := .cmdWrite, txbuf := frame, acc := acc })
    rfl hm ha hk hlen hbody hd hs
  refine settle_eq (n := 8) (by decide) ?_ (tick_idle rfl)
  rw [ticks_succ, hcheck, ticks_succ, hencode, ticks_add 5 1, hexchange, latch_of_commandOf hc, ticks_succ, ticks_zero,
    tick_done (congrArg bodyExit hw)]
  rfl

/-- Settles O42: both frames are ready made, and the encode step takes them as they stand. -/
theorem wireFramesExchange : Obligations.WireFramesExchange := by
  intro s opcode lo hi k len body data status rest hb hm haw ha hk hlen hbody hd hs
  constructor
  all_goals
    rw [exec_of_not_busy hb,
      settle_fromAwake rfl rfl rfl (Nat.zero_le _) rfl (tick_encode_ready rfl rfl) hm haw ha hk hlen hbody hd hs]
    rfl

end Sys2Proof.Machine
end

-- ==== Proofs: the Checksum Engine ====
section
/-! The Checksum Engine (R80 to R85): its bit step on natural numbers, its linearity over XOR carried to sequences, and
the mirrored register of CRC-16/ARC. -/

namespace Sys2Proof.Machine

/-- Settles O5, by the state in which CHECKSUM ends. -/
theorem checksumDelivers : Obligations.ChecksumDelivers := by
  intro s bytes hb
  rw [exec_of_not_busy hb, settle_checksum, checksum, crcEmit]

/-! ### The bit-serial function on natural numbers -/

/-- The eight bits are read by their index, from 0 up (R82). -/
theorem dataBits_eq_map (b : Byte) : dataBits b = (List.range 8).map b.getLsbD := rfl

theorem toNat_crcBit (acc : Word) (d : Bool) : (crcBit acc d).toNat = crcBitNat acc.toNat d := by
  have hcarry : acc.getLsbD 15 = decide (acc.toNat ≥ 0x8000) := BitVec.msb_eq_decide acc
  have hshift : (acc <<< 1).toNat = 2 * acc.toNat % 0x10000 := by
    rw [BitVec.toNat_shiftLeft, Nat.shiftLeft_eq, Nat.mul_comm]
  unfold crcBit crcBitNat
  rw [hcarry]
  by_cases h : d = decide (acc.toNat ≥ 0x8000)
  · simp [← h, hshift]
  · rw [if_pos (by simpa using h), if_neg h, BitVec.toNat_xor, hshift]
    rfl

theorem toNat_crcByte (acc : Word) (b : Byte) : (crcByte acc b).toNat = crcByteNat acc.toNat b.toNat := by
  rw [crcByte, crcByteNat, dataBits_eq_map, List.foldl_map]
  exact (List.foldl_hom BitVec.toNat fun _ _ => by
    rw [toNat_crcBit, BitVec.getLsbD, Nat.testBit_eq_decide_div_mod_eq]).symm

theorem toNat_crcBytes (acc : Word) (bytes : List Byte) :
    (crcBytes acc bytes).toNat = bytes.foldl (fun a b => crcByteNat a b.toNat) acc.toNat :=
  (List.foldl_hom BitVec.toNat fun a b => (toNat_crcByte a b).symm).symm

/-- The two emitted bytes are the accumulator's remainder and quotient by 256 (R83). -/
theorem crcEmit_eq_ofNat (acc : Word) :
    crcEmit acc = [BitVec.ofNat 8 (acc.toNat % 256), BitVec.ofNat 8 (acc.toNat / 256)] := by
  have hlow : acc.setWidth 8 = BitVec.ofNat 8 (acc.toNat % 256) := by bv_omega
  have hhigh : (acc >>> 8).setWidth 8 = BitVec.ofNat 8 (acc.toNat / 256) := by bv_omega
  rw [crcEmit, hlow, hhigh]

/-- Settles O6: `BitVec.toNat` takes the engine's fold to the fold on natural numbers. -/
theorem engineIsBitSerialCrc : Obligations.EngineIsBitSerialCrc := by
  intro bytes
  have hacc := toNat_crcBytes 0 bytes
  exact ⟨hacc, by rw [checksum, crcEmit_eq_ofNat, hacc]; rfl⟩

/-! ### Zero bytes and linearity -/

/-- A zero byte leaves the zero accumulator as it is. -/
theorem crcByte_zero_zero : crcByte 0 0 = 0 := by decide

theorem checksum_zero_cons (bytes : List Byte) : checksum (0x00 :: bytes) = checksum bytes := by
  rw [checksum, crcBytes_cons, crcByte_zero_zero, checksum]

theorem checksum_replicate_zero (n : Nat) : checksum (List.replicate n 0x00) = [0x00, 0x00] := by
  induction n with
  | zero => rfl
  | succ n ih => rw [List.replicate_succ, checksum_zero_cons, ih]

/-- Settles O7: zero bytes keep the zero accumulator; the two sequences of R84 (c) are computed. -/
theorem checksumZeroBytes : Obligations.ChecksumZeroBytes :=
  ⟨rfl, checksum_zero_cons, checksum_replicate_zero, by decide, by decide⟩

/-- The engine run over the XOR of two sequences, from the XOR of two accumulators. -/
theorem crcBytes_zipWith_xor {s t : List Byte} (h : s.length = t.length) (a b : Word) :
    crcBytes (a ^^^ b) (List.zipWith (· ^^^ ·) s t) = crcBytes a s ^^^ crcBytes b t := by
  induction s generalizing t a b with
  | nil => rw [List.eq_nil_of_length_eq_zero h.symm]; rfl
  | cons x xs ih =>
    cases t with
    | nil => cases h
    | cons y ys =>
      rw [List.zipWith_cons_cons, crcBytes_cons, crcBytes_cons, crcBytes_cons, crcByte_xor, ih (Nat.succ.inj h)]

/-- Settles O8: `crcBytes_zipWith_xor` from the accumulators 0 and 0. -/
theorem checksumIsLinear : Obligations.ChecksumIsLinear := fun _ _ h =>
  crcBytes_zipWith_xor h 0 0

/-! ### CRC-16/ARC -/

/-- One bit step of CRC-16/ARC, its data already XORed into the register (G7). -/
def arcBit (c : Word) : Word :=
  if c.getLsbD 0 then (c >>> 1) ^^^ 0xA001 else c >>> 1

theorem arcByte_eq_foldl (crc : Word) (b : Byte) :
    arcByte crc b = (List.range 8).foldl (fun c _ => arcBit c) (crc ^^^ b.setWidth 16) := rfl

theorem reverse_crcPoly : crcPoly.reverse = 0xA001 := by decide

theorem reverse_xor {w : Nat} (x y : BitVec w) : (x ^^^ y).reverse = x.reverse ^^^ y.reverse := by
  ext i hi
  simp only [BitVec.getElem_xor, BitVec.getElem_reverse, BitVec.getMsbD_xor]

theorem reverse_shiftLeft_one (x : Word) : (x <<< 1).reverse = x.reverse >>> 1 := by
  ext i hi
  rw [BitVec.getElem_reverse, BitVec.getMsbD_shiftLeft, BitVec.getElem_ushiftRight, BitVec.getLsbD_reverse,
    Nat.add_comm]

/-- On the mirrored register, with the data bits `v` still to come XORed into it, ARC's bit step consumes the lowest of
them as the engine does. -/
theorem arcBit_reverse_xor (x v : Word) :
    arcBit (x.reverse ^^^ v) = (crcBit x (v.getLsbD 0)).reverse ^^^ (v >>> 1) := by
  have hlow : (x.reverse ^^^ v).getLsbD 0 = (v.getLsbD 0 != x.getLsbD 15) := by
    rw [BitVec.getLsbD_xor, BitVec.getLsbD_reverse, Bool.xor_comm]
    rfl
  rw [arcBit, crcBit, hlow, BitVec.ushiftRight_xor_distrib, ← reverse_shiftLeft_one]
  split
  · rw [reverse_xor, reverse_crcPoly, BitVec.xor_assoc, BitVec.xor_assoc, BitVec.xor_comm 0xA001]
  · rfl

theorem foldl_arcBit_reverse_xor (x v : Word) (n : Nat) :
    (List.range n).foldl (fun c _ => arcBit c) (x.reverse ^^^ v) =
      (((List.range n).map v.getLsbD).foldl crcBit x).reverse ^^^ (v >>> n) := by
  induction n with
  | zero => simp
  | succ n ih =>
    have hbit : (v >>> n).getLsbD 0 = v.getLsbD n := BitVec.getLsbD_ushiftRight v n 0
    simp only [List.range_succ, List.foldl_append, List.map_append, List.foldl_cons, List.foldl_nil, List.map_cons,
      List.map_nil]
    rw [ih, arcBit_reverse_xor, hbit, ← BitVec.shiftRight_add]

/-- ARC's byte step is the engine's on the mirrored register. -/
theorem arcByte_reverse (acc : Word) (b : Byte) : arcByte acc.reverse b = (crcByte acc b).reverse := by
  have hbits : (List.range 8).map (b.setWidth 16).getLsbD = dataBits b := by
    rw [dataBits_eq_map]
    refine List.map_congr_left fun k hk => ?_
    have hk : k < 16 := Nat.lt_trans (List.mem_range.1 hk) (by decide)
    rw [BitVec.getLsbD_setWidth, decide_eq_true hk, Bool.true_and]
  have hspent : b.setWidth 16 >>> 8 = 0#16 := by bv_omega
  rw [arcByte_eq_foldl, foldl_arcBit_reverse_xor, hbits, hspent, BitVec.xor_zero, crcByte]

theorem foldl_arcByte_reverse (acc : Word) (bytes : List Byte) :
    bytes.foldl arcByte acc.reverse = (crcBytes acc bytes).reverse :=
  List.foldl_hom BitVec.reverse arcByte_reverse

/-- Settles O9: the register of CRC-16/ARC mirrors the accumulator through every byte. -/
theorem accumulatorReversesArc : Obligations.AccumulatorReversesArc := by
  intro bytes k hk
  have harc : bytes.foldl arcByte 0 = (crcBytes 0 bytes).reverse := foldl_arcByte_reverse 0 bytes
  rw [harc, BitVec.getLsbD_reverse, BitVec.getLsbD_eq_getMsbD, decide_eq_true hk, Bool.true_and]

end Sys2Proof.Machine
end

-- ==== Proofs: the Packet Codec ====
section
/-! The Packet Codec on whole frames (R50, R90 to R100): ENCODE's two endings, the frames that decode to what they
carry, the status policy, and single-bit errors, which no accumulator overlooks (R85 b). -/

namespace Sys2Proof.Machine

/-! ### ENCODE -/

/-- Settles O10, by the state in which ENCODE ends for a payload that fits. -/
theorem encodeDelivers : Obligations.EncodeDelivers := by
  intro s opcode param1 param2 payload hb hfits
  rw [exec_of_not_busy hb, settle_encode_fits rfl hfits]
  rfl

/-- Settles O11, by the state in which ENCODE ends for a longer payload. -/
theorem encodeRefusesLongPayload : Obligations.EncodeRefusesLongPayload := by
  intro s opcode param1 param2 payload hb hlong
  rw [exec_of_not_busy hb, settle_encode_long rfl hlong]

/-! ### Frames that decode -/

/-- A count byte, data and their checksum decode to the data, whatever the count says (R55, R96 b). -/
theorem decodeReply_cons_append_checksum (count : Byte) {data : List Byte} (h : 1 ≤ data.length) :
    decodeReply (count :: data ++ checksum (count :: data)) =
      .ok ⟨data, if data.length = 1 then data.head? else none⟩ := by
  rw [decodeReply_append_checksum (by simpa using h)]
  simp

/-- Settles O14: the frame of R99 is one of those with any count byte. -/
theorem replyFramesRoundTrip : Obligations.ReplyFramesRoundTrip :=
  ⟨fun _ h _ => decodeReply_cons_append_checksum _ h,
    fun count _ h => decodeReply_cons_append_checksum count (List.length_pos_of_ne_nil h)⟩

/-- Settles O16: a command frame too is a count byte, data and their checksum; its data has at least four bytes. -/
theorem commandFrameDecodesToFields : Obligations.CommandFrameDecodesToFields := by
  intro c frame h
  obtain ⟨-, rfl⟩ := encodeCommand_ok h
  exact decodeReply_cons_append_checksum (BitVec.ofNat 8 (7 + c.payload.length))
    (data := [c.opcode, c.param1, c.param2.1, c.param2.2] ++ c.payload) (by simp)

/-! ### The status policy -/

/-- Settles O18: the policy asks for the two non-errors first and then for membership in the table of R57. -/
theorem statusPolicyFailsClosed : Obligations.StatusPolicyFailsClosed := by
  intro code inWake
  rw [statusOutcome, known_classify]
  by_cases hok : code = 0x00 ∨ (code = 0x11 ∧ inWake = true)
  · rw [if_pos hok]
    rcases hok with h0 | h11
    · rw [if_pos h0]
    · rw [if_pos h11, ite_self]
  · obtain ⟨h0, h11⟩ := not_or.1 hok
    rw [if_neg hok, if_neg h0, if_neg h11]
    cases statusTable.lookup code <;> rfl

/-! ### Single-bit errors -/

/-- Steps that keep different accumulators apart do so for a whole sequence. -/
theorem foldl_injective {α β : Type} {f : α → β → α} (hf : ∀ x, Function.Injective (f · x)) (l : List β) :
    Function.Injective (fun a => l.foldl f a) := by
  induction l with
  | nil => exact Function.injective_id
  | cons x xs ih => exact ih.comp (hf x)

theorem crcByte_injective (x : Byte) : Function.Injective (crcByte · x) :=
  foldl_injective (f := crcBit) (fun _ _ _ => crcBit_injective) (dataBits x)

/-- Different accumulators stay different through a byte sequence. -/
theorem crcBytes_injective (bytes : List Byte) : Function.Injective (crcBytes · bytes) :=
  foldl_injective crcByte_injective bytes

/-- A single bit never leaves the zero accumulator at zero. -/
theorem crcByte_zero_shiftLeft {b : Nat} (hb : b < 8) : crcByte 0 (1#8 <<< b) ≠ 0 := by
  revert b; decide

theorem crcByte_xor_right (a : Word) (x e : Byte) : crcByte a (x ^^^ e) = crcByte a x ^^^ crcByte 0 e := by
  simpa using crcByte_xor a 0 x e

section
variable {e : Byte} (he : crcByte 0 e ≠ 0)
include he

/-- An error in one byte changes the accumulator of a sequence: by linearity it XORs its own accumulator into that after
the byte, and the bytes that follow keep the two apart (R85 b). -/
theorem crcBytes_modify_ne {bytes : List Byte} {k : Nat} (hk : k < bytes.length) (a : Word) :
    crcBytes a (bytes.modify k (· ^^^ e)) ≠ crcBytes a bytes := by
  obtain ⟨before, x, after, rfl, -, hmod⟩ := List.exists_of_modify (· ^^^ e) hk
  rw [hmod, crcBytes_append, crcBytes_append, crcBytes_cons, crcBytes_cons]
  intro h
  have hbyte : crcByte (crcBytes a before) x ^^^ crcByte 0 e = crcByte (crcBytes a before) x ^^^ 0#16 := by
    rw [← crcByte_xor_right, crcBytes_injective after h, BitVec.xor_zero]
  exact he ((BitVec.xor_right_inj _).1 hbyte)

theorem modify_xor_ne_self {bytes : List Byte} {k : Nat} (hk : k < bytes.length) : bytes.modify k (· ^^^ e) ≠ bytes :=
  fun h => crcBytes_modify_ne he hk 0 (congrArg (crcBytes 0) h)

/-- A frame with a good checksum and an error in one byte has a bad one: the error is in the body and changes its
checksum, or it is in the checksum and the body keeps its own. -/
theorem checksum_frameBody_modify_ne {frame : List Byte} (hgood : checksum (frameBody frame) = frameCrc frame) {k : Nat}
    (hk : k < frame.length) :
    checksum (frameBody (frame.modify k (· ^^^ e))) ≠ frameCrc (frame.modify k (· ^^^ e)) := by
  simp only [frameBody, frameCrc, List.length_modify, List.take_modify] at hgood ⊢
  rcases Nat.lt_or_ge k (frame.length - 2) with hbody | hcrc
  · rw [List.drop_modify_of_lt _ _ _ _ hbody, ← hgood]
    intro h
    exact crcBytes_modify_ne he (by simp; omega) 0 (checksum_injective_acc h)
  · rw [List.drop_modify_of_ge _ _ _ _ hcrc, List.modify_eq_self (by simp; omega), hgood]
    exact (modify_xor_ne_self he (by simp; omega)).symm

end

theorem decodeReply_of_bad_checksum {frame : List Byte} (hlong : 4 ≤ frame.length)
    (hbad : checksum (frameBody frame) ≠ frameCrc frame) : decodeReply frame = .error .checksumMismatch := by
  rw [decodeReply, if_neg (by omega), if_pos hbad]

/-- Settles O15: a frame that decodes has a good checksum, and a single bit is an error that the checksum shows. -/
theorem singleBitFlipIsDetected : Obligations.SingleBitFlipIsDetected := by
  intro frame d h k b hk hb
  obtain ⟨hlong, hgood, -⟩ := decodeReply_ok h
  exact decodeReply_of_bad_checksum (by simpa using hlong)
    (checksum_frameBody_modify_ne (crcByte_zero_shiftLeft hb) hgood hk)

end Sys2Proof.Machine
end

-- ==== Proofs: the Session State Machine ====
section
/-! The operations of the Session State Machine (R111 to R117): WAKE by the answer to its read, IDLE and SLEEP by the
answer to their write, each of them against its pseudocode, and the session gate on the two wire frames (R119). -/

namespace Sys2Proof.Machine

variable {s : State} {a : Answer} {rest : List Answer}

/-- An operation that has come to `Done` within the longest path settles by being delivered (R140). -/
theorem settle_of_done {n : Nat} (hn : n < longestPath) (hp : (ticks n s).phase = .done) :
    settle s = (ticks n s).deliver := by
  refine settle_eq (n := n + 1) hn ?_ (tick_deliver _)
  rw [ticks_add, ticks_succ, ticks_zero, tick_done hp]

/-! ### WAKE -/

/-- WAKE, begun in `s`, before its read: the write has returned, whatever it answered, and the settle interval has
elapsed (R112, R113). -/
def State.wakeSent (s : State) (a : Answer) (rest : List Answer) : State :=
  { latch (some .wake) s with
    answers := rest, phase := .wakeRead,
    trace := s.trace ++ [.write (locate s.cfg s.cfg.wakeTarget) [] a.failure, .delay s.cfg.tWakeSettle] }

theorem ticks_wakeSent (ha : s.answers = a :: rest) : ticks 2 (latch (some .wake) s) = s.wakeSent a rest := by
  rw [ticks_succ, tick_wakeWrite (s := latch (some .wake) s) rfl ha, ticks_succ, tick_wakeSettle rfl, ticks_zero]
  simp [State.wakeSent]

/-- WAKE after its read has returned: the three events of R111 are made. -/
theorem afterWakeRead_wakeSent (s : State) (a b : Answer) (rest : List Answer) :
    (s.wakeSent a (b :: rest)).afterWakeRead b rest =
      { latch (some .wake) s with
        answers := rest, phase := .wakeRead, draws := s.draws + b.drawn 4,
        trace := s.trace ++ wakeEvents s.cfg a.failure (b.outcome 4 s.draws) } := by
  simp [State.wakeSent, State.afterWakeRead, wakeEvents]

/-- What the read decides is delivered (R114, R115). -/
theorem settle_wake (ha : s.answers = a :: rest) (hp : (tick (s.wakeSent a rest)).phase = .done) :
    settle (latch (some .wake) s) = (tick (s.wakeSent a rest)).deliver := by
  have ht : ticks 3 (latch (some .wake) s) = tick (s.wakeSent a rest) := by
    rw [ticks_add 2 1, ticks_wakeSent ha, ticks_succ, ticks_zero]
  rw [settle_of_done (n := 3) (by decide) (ht ▸ hp), ht]

section
variable {r : List Byte} (ha : s.answers = a :: .bytes r :: rest) (hr : r.length = 4)
include ha hr

theorem settle_wake_good (hg : wakeReplyGood r = true) :
    settle (latch (some .wake) s) = { s.ended none none with
      session := .awake, rxbuf := r, acc := crcBytes 0 (r.take 2), answers := rest,
      trace := s.trace ++ wakeEvents s.cfg a.failure (.got r) } := by
  have ht := tick_wakeRead_good (s := s.wakeSent a (.bytes r :: rest)) rfl rfl (outcome_bytes hr _) hg
  rw [settle_wake ha (ht ▸ rfl), ht, afterWakeRead_wakeSent, outcome_bytes hr, drawn_bytes hr]
  rfl

theorem settle_wake_bad (hg : wakeReplyGood r = false) :
    settle (latch (some .wake) s) = { s.ended (some .wakeFailed) none with
      session := .faulted, rxbuf := r, acc := crcBytes 0 (r.take 2), answers := rest,
      trace := s.trace ++ wakeEvents s.cfg a.failure (.got r) } := by
  have ht := tick_wakeRead_bad (s := s.wakeSent a (.bytes r :: rest)) rfl rfl (outcome_bytes hr _) hg rfl
  rw [settle_wake ha (ht ▸ rfl), ht, afterWakeRead_wakeSent, outcome_bytes hr, drawn_bytes hr]
  rfl

end

theorem settle_wake_failed {e : Nat} (ha : s.answers = a :: .error e :: rest) :
    settle (latch (some .wake) s) = { s.ended (some (.transport e)) none with
      session := .faulted, answers := rest, trace := s.trace ++ wakeEvents s.cfg a.failure (.failed e) } := by
  have ht := tick_wakeRead_failed (s := s.wakeSent a (.error e :: rest)) rfl rfl rfl rfl
  rw [settle_wake ha (ht ▸ rfl), ht, afterWakeRead_wakeSent]
  rfl

/-- Settles O20: the verdict on the reply is membership in the reply set of R114 (`wakeReplyGood_iff`). -/
theorem wakeFollowsReply : Obligations.WakeFollowsReply := by
  intro s a r rest hb ha hr
  refine ⟨_, exec_of_not_busy hb _, fun hgood => ?_, fun hbad => ?_⟩
  · exact settle_wake_good ha hr ((wakeReplyGood_iff hr).2 hgood)
  · exact settle_wake_bad ha hr (Bool.eq_false_iff.2 (mt (wakeReplyGood_iff hr).1 hbad))

/-- Settles O21, by the state in which WAKE ends after a failed read. -/
theorem wakeReadErrorPassesThrough : Obligations.WakeReadErrorPassesThrough := by
  intro s a e rest hb ha
  rw [exec_of_not_busy hb, settle_wake_failed ha]

/-! ### IDLE and SLEEP -/

/-- Where IDLE and SLEEP write (R116, R117). -/
def powerTarget (i : Instr) (cfg : Cfg) : Target :=
  if i = .sleep then cfg.sleepTarget else cfg.idleTarget

section
variable {i : Instr} (hi : i = .idle ∨ i = .sleep)
include hi

/-- Acceptance of IDLE or SLEEP latches no Command and leads to `PowerWrite` (R17). -/
theorem latch_power (s : State) :
    latch (some i) s = { s with busy := true, op := some i, err := none, result := none, phase := .powerWrite } := by
  rcases hi with rfl | rfl <;> rfl

theorem settle_power (ha : s.answers = a :: rest) :
    settle (latch (some i) s) = { s.ended (a.failure.map Error.transport) none with
      session := .sleeping, answers := rest,
      trace := s.trace ++ [.write (locate s.cfg (powerTarget i s.cfg)) [] a.failure] } := by
  have ht := tick_powerWrite (s := latch (some i) s) (by rw [latch_power hi]) ha rfl rfl
  rw [settle_of_done (n := 1) (by decide) (by rw [ticks_succ, ht]; rfl), ticks_succ, ht, ticks_zero, latch_power hi]
  simp [State.deliver, State.ended, powerTarget]

theorem settle_power_waits (ha : s.answers = []) : settle (latch (some i) s) = latch (some i) s :=
  ticks_fixed (tick_powerWrite_nil (s := latch (some i) s) (by rw [latch_power hi]) ha) longestPath

end

/-- Settles O22: the two operations differ in `powerTarget`. -/
theorem idleAndSleepDeliver : Obligations.IdleAndSleepDeliver := by
  intro s a rest hb ha
  rw [exec_of_not_busy hb, exec_of_not_busy hb, settle_power (.inl rfl) ha, settle_power (.inr rfl) ha]
  exact ⟨rfl, rfl⟩

/-! ### Against the pseudocode -/

/-- IDLE and SLEEP do what R116 and R117 say: they wait where no answer is at hand, and deliver what the first one
says. -/
theorem settle_power_agrees {i : Instr} (hi : i = .idle ∨ i = .sleep) (s : State) :
    Agrees s (settle (latch (some i) s)) (refPower s.cfg (powerTarget i s.cfg) s.world) fun _ => none := by
  cases ha : s.answers with
  | nil =>
    rw [settle_power_waits hi ha, latch_power hi]
    simp [Agrees, Reflects, refPower, refWrite, State.world, transportPhases, ha]
  | cons a rest =>
    rw [settle_power hi ha]
    cases hf : a.failure <;>
      simp [Agrees, Reflects, refPower, refWrite, State.world, World.record, State.ended, locate, ha, hf]

/-- WAKE does what R111 says: the handshake does (`wake_stage`), and its end is delivered. -/
theorem settle_wake_agrees (s : State) :
    Agrees s (settle (latch (some .wake) s)) (refWake s.cfg s.world) fun _ => none := by
  have hstage : ∃ n ≤ 3, WakeEnd (latch (some .wake) s) (ticks n (latch (some .wake) s)) s.trace
      (refWake s.cfg s.world) .done .done := wake_stage s.trace [] rfl rfl rfl (List.append_nil _).symm
  obtain ⟨n, hn, ⟨-, -, -, -, hdel, hbusy⟩, hend⟩ := hstage
  have hlt : n < longestPath := Nat.lt_of_le_of_lt hn (by decide)
  cases hr : refWake s.cfg s.world with
  | hung w =>
    rw [hr] at hend
    obtain ⟨hfix, hp, htrace, hans, hdraws, hsess⟩ := hend
    rw [settle_eq hlt.le rfl hfix]
    exact ⟨hbusy, hp, hdel, hsess, htrace, hans, hdraws⟩
  | raised e w =>
    rw [hr] at hend
    obtain ⟨hp, herr, -, htrace, hans, hdraws, hsess, -⟩ := hend
    rw [settle_of_done hlt hp]
    exact ⟨rfl, rfl, by simp [hdel, herr], hsess, htrace, hans, hdraws⟩
  | returned v w =>
    rw [hr] at hend
    obtain ⟨hp, herr, hres, htrace, hans, hdraws, hsess, -⟩ := hend
    rw [settle_of_done hlt hp]
    exact ⟨rfl, rfl, by simp [hdel, herr, hres], hsess, htrace, hans, hdraws⟩

/-- Settles O33: `settle_wake_agrees`, and `settle_power_agrees` with the target of each. -/
theorem sessionOperationsRefinePseudocode : Obligations.SessionOperationsRefinePseudocode := fun s hb =>
  ⟨⟨_, exec_of_not_busy hb _, settle_wake_agrees s⟩,
    ⟨_, exec_of_not_busy hb _, settle_power_agrees (.inl rfl) s⟩,
    ⟨_, exec_of_not_busy hb _, settle_power_agrees (.inr rfl) s⟩⟩

/-! ### The session gate -/

/-- A command without autoWake is refused outside Awake, and `Check` is all it passes through (R119, R132). -/
theorem settle_notAwake {i : Instr} {c : Cmd} (hi : isCommand (some i) = true) (hf : firstPhase i = .check)
    (hc : commandOf i s.cfg = some c) (hl : c.payload.length ≤ 248) (hw : c.autoWake = false)
    (hs : s.session ≠ .awake) :
    settle (latch (some i) s) = { s.ended (some (.refused .notAwake)) none with cmd := c } := by
  have ht : tick (latch (some i) s) = ((latch (some i) s).raise (.refused .notAwake)).goto .done := by
    rw [tick_check_command hf hi]
    exact checkCommand_notAwake (by simpa [hc] using hl) (by simpa [hc] using hw) hs
  rw [settle_of_done (n := 1) (by decide) (by rw [ticks_succ, ht]; rfl), ticks_succ, ht, ticks_zero,
    raise_of_no_error rfl, latch_of_commandOf hc]
  rfl

/-- Settles O43: the Commands of the two frames have no payload and no autoWake. -/
theorem wireFramesNeedAwake : Obligations.WireFramesNeedAwake := by
  intro s opcode lo hi hb hs
  rw [exec_of_not_busy hb, exec_of_not_busy hb, settle_notAwake rfl rfl rfl (Nat.zero_le _) rfl hs,
    settle_notAwake rfl rfl rfl (Nat.zero_le _) rfl hs]
  exact ⟨rfl, rfl⟩

end Sys2Proof.Machine
end

-- ==== Proofs: a command on the answers at hand ====
section
/-! The stages of a command that builds its own frame (R132 to R139), on answers that are at hand: the way to the
command write, from Awake or through the wake handshake; the ways in which the exchange fails; the two ways to
delivery. -/

namespace Sys2Proof.Machine

variable {s u : State} {i : Instr} {c : Cmd} {a k z : Answer} {e n : Nat} {len : Byte} {wk body : List Byte}
  {rest : List Answer}

/-- The instruction is a command that latches `c` and sends the frame the encode step builds of it (R14, R134). -/
structure Encodes (i : Instr) (cfg : Cfg) (c : Cmd) : Prop where
  command : isCommand (some i) = true
  check : firstPhase i = .check
  latched : commandOf i cfg = some c
  built : readyFrame i = none

theorem encodes_execute (c : Cmd) (cfg : Cfg) :
    Encodes (.execute c.opcode c.param1 c.param2 c.payload c.autoWake) cfg c :=
  ⟨rfl, rfl, rfl, rfl⟩

/-! ### To the command write -/

/-- A command begun in `s` whose frame is built (R134). -/
def State.encoded (s : State) (i : Instr) (c : Cmd) : State :=
  { latch (some i) s with
    phase := .cmdWrite, cmd := c, acc := crcBytes 0 (commandHead c),
    txbuf := commandHead c ++ checksum (commandHead c) }

/-- After the wake write, whatever it answered, and the settle interval (R112, R113). -/
def State.wakeWritten (u : State) (a : Answer) (rest : List Answer) : State :=
  { u with
    answers := rest, phase := .wakeRead,
    trace := u.trace ++ [.write (locate u.cfg u.cfg.wakeTarget) [] a.failure, .delay u.cfg.tWakeSettle] }

/-- What a wake handshake answered by the reply `wk` leaves of `s` (R114). -/
def State.woken (s : State) (a : Answer) (wk : List Byte) (rest : List Answer) : State :=
  { s with
    session := .awake, rxbuf := wk, acc := crcBytes 0 (wk.take 2), answers := rest,
    trace := s.trace ++ wakeEvents s.cfg a.failure (.got wk) }

section
variable (h : Encodes i s.cfg c)
include h

theorem Encodes.latch_cmd : (latch (some i) s).cmd = c := by
  simp [h.latched]

theorem Encodes.tick_latch : tick (latch (some i) s) = checkCommand (latch (some i) s) :=
  tick_check_command h.check h.command

variable (hl : c.payload.length ≤ 248)
include hl

theorem Encodes.tick_encode : tick ((latch (some i) s).goto .encode) = s.encoded i c := by
  have hl' : (latch (some i) s).cmd.payload.length ≤ 248 := by rwa [h.latch_cmd]
  rw [Machine.tick_encode (s := (latch (some i) s).goto .encode) rfl h.built hl', goto_cmd, h.latch_cmd]
  rfl

/-- From Awake, `Check` leads to the encode step (R132, R134). -/
theorem Encodes.ticks_awake (hw : c.autoWake = false) (hs : s.session = .awake) :
    ticks 2 (latch (some i) s) = s.encoded i c := by
  rw [ticks_succ, h.tick_latch,
    checkCommand_awake (s := latch (some i) s) (by rwa [h.latch_cmd]) (by rwa [h.latch_cmd]) hs, ticks_succ,
    h.tick_encode hl, ticks_zero]

variable (hw : c.autoWake = true)
include hw

/-- `Check` and the first two phases of the wake handshake (R133). -/
theorem Encodes.ticks_wakeWritten (ha : s.answers = a :: rest) :
    ticks 3 (latch (some i) s) = (latch (some i) s).wakeWritten a rest := by
  rw [ticks_succ, h.tick_latch, checkCommand_wake (by rwa [h.latch_cmd]) (by rwa [h.latch_cmd]), ticks_succ,
    tick_wakeWrite (s := (latch (some i) s).goto .wakeWrite) rfl ha, ticks_succ, tick_wakeSettle rfl, ticks_zero]
  simp [State.wakeWritten]

/-- After a good wake reply a command stands where it would stand, begun Awake in the state the handshake leaves. -/
theorem Encodes.ticks_woken (ha : s.answers = a :: .bytes wk :: rest) (hg : GoodWakeReply wk) :
    ticks 5 (latch (some i) s) = (s.woken a wk rest).encoded i c := by
  have hlen : wk.length = 4 := by obtain ⟨cc, ss, -, rfl⟩ := hg; rfl
  have hgood := (wakeReplyGood_iff hlen).2 hg
  have hop : (some i : Option Instr) ≠ some .wake := ne_wake_of_isCommand h.command
  have hwoken : tick ((latch (some i) s).wakeWritten a (.bytes wk :: rest)) =
      (latch (some i) (s.woken a wk rest)).goto .encode := by
    rw [tick_wakeRead_good rfl rfl (outcome_bytes hlen _) hgood]
    simp [State.wakeWritten, State.afterWakeRead, State.woken, wakeEvents, latch, State.goto, outcome_bytes hlen,
      drawn_bytes hlen, hop]
  have h' : Encodes i (s.woken a wk rest).cfg c := h
  rw [ticks_add 3 2, h.ticks_wakeWritten hl hw ha, ticks_succ, hwoken, ticks_succ, h'.tick_encode hl, ticks_zero]

end

/-! ### A command exchange that fails -/

/-- After the command write, which was acknowledged, and the wait (R134, R135). -/
def State.written (u : State) (rest : List Answer) : State :=
  { u with
    answers := rest, phase := .readLen,
    trace := u.trace ++ [.write (locate u.cfg u.cfg.cmdTarget) u.txbuf none, .delay u.cfg.tExec] }

/-- After the length read, which returned `len` (R136). -/
def State.lengthRead (u : State) (len : Byte) (rest : List Answer) : State :=
  { u with
    answers := rest, phase := .readBody, rxlen := len, trace := u.trace ++ sendEvents u.cfg u.txbuf (.got [len]) }

/-- After the whole reply `len :: body` (R137). -/
def State.replyRead (u : State) (len : Byte) (body : List Byte) (rest : List Answer) : State :=
  { u with
    answers := rest, phase := .decode, rxlen := len, rxbuf := len :: body,
    trace := u.trace ++ sendEvents u.cfg u.txbuf (.got [len]) ++
      [.read (locate u.cfg u.cfg.cmdTarget) body.length (.got body)] }

/-- An exchange ends by an error, having made these events of it (R140). -/
def State.exchangeFailed (u : State) (x : Error) (events : List Event) (rest : List Answer) : State :=
  { u with
    err := some x, result := none, phase := bodyExit u.cmd.autoWake, answers := rest, trace := u.trace ++ events }

section
variable (hp : u.phase = .cmdWrite) (he : u.err = none)
include hp

include he in
theorem ticks_writeFailed (ha : u.answers = .error e :: rest) :
    ticks 1 u = u.exchangeFailed (.transport e) [.write (locate u.cfg u.cfg.cmdTarget) u.txbuf (some e)] rest :=
  tick_cmdWrite_failed hp ha rfl he

variable (hk : k.failure = none)
include hk

theorem ticks_written (ha : u.answers = k :: rest) : ticks 2 u = u.written rest := by
  rw [ticks_succ, tick_cmdWrite_ok hp ha hk, ticks_succ, tick_execWait rfl, ticks_zero]
  simp [State.written]

include he in
theorem ticks_lengthFailed (ha : u.answers = k :: .error e :: rest) :
    ticks 3 u = u.exchangeFailed (.transport e) (sendEvents u.cfg u.txbuf (.failed e)) rest := by
  rw [ticks_add 2 1, ticks_written hp hk ha, ticks_succ,
    tick_readLen_failed (s := u.written (.error e :: rest)) rfl rfl rfl he, ticks_zero]
  simp [State.written, State.exchangeFailed, State.afterReply, sendEvents]

theorem ticks_lengthRead (ha : u.answers = k :: .bytes [len] :: rest) : ticks 3 u = u.lengthRead len rest := by
  have hone : ∀ draws, (Answer.bytes [len]).outcome 1 draws = .got [len] := outcome_bytes rfl
  rw [ticks_add 2 1, ticks_written hp hk ha, ticks_succ, tick_readLen_got rfl rfl (hone _), ticks_zero]
  simp [State.written, State.lengthRead, State.afterReply, sendEvents, hone, drawn_bytes]

variable (hm : u.cfg.rxMode = .remainder)
include hm

include he in
theorem ticks_bodyFailed (hlen : 2 ≤ len.toNat) (ha : u.answers = k :: .bytes [len] :: .error e :: rest) :
    ticks 4 u = { u with rxlen := len }.exchangeFailed (.transport e)
      (sendEvents u.cfg u.txbuf (.got [len]) ++
        [Event.read (locate u.cfg u.cfg.cmdTarget) (len.toNat - 1) (.failed e)]) rest := by
  have hread : bodyReadLength u.cfg.rxMode len = some (len.toNat - 1) := by rw [hm]; exact if_pos hlen
  rw [ticks_add 3 1, ticks_lengthRead hp hk ha, ticks_succ,
    tick_readBody_failed (s := u.lengthRead len (.error e :: rest)) rfl hread rfl rfl he, ticks_zero]
  simp [State.lengthRead, State.exchangeFailed, State.afterReply]

include he in
/-- A length below 2 makes no body read, and one byte is no frame (R137, R138). -/
theorem ticks_lengthBelowTwo (hlen : len.toNat < 2) (ha : u.answers = k :: .bytes [len] :: rest) :
    ticks 5 u = { u with rxlen := len, rxbuf := [len] }.exchangeFailed .frameTooShort
      (sendEvents u.cfg u.txbuf (.got [len])) rest := by
  have hread : bodyReadLength u.cfg.rxMode len = none := by rw [hm]; exact if_neg (by omega)
  have hbody : tick (u.lengthRead len rest) = { u.lengthRead len rest with rxbuf := [len], phase := .decode } := by
    rw [tick_readBody_none rfl hread]
    simp [State.lengthRead, hm, replyFrame]
  rw [ticks_add 3 2, ticks_lengthRead hp hk ha, ticks_succ, hbody, ticks_succ,
    tick_decode_error (s := { u.lengthRead len rest with rxbuf := [len], phase := .decode }) rfl rfl he, ticks_zero]
  rfl

theorem ticks_replyRead (hlen : body.length + 1 = len.toNat) (hbody : 1 ≤ body.length)
    (ha : u.answers = k :: .bytes [len] :: .bytes body :: rest) : ticks 4 u = u.replyRead len body rest := by
  have hread : bodyReadLength u.cfg.rxMode len = some body.length := by rw [hm, bodyReadLength_remainder hlen hbody]
  have hrest : ∀ draws, (Answer.bytes body).outcome body.length draws = .got body := outcome_bytes rfl
  rw [ticks_add 3 1, ticks_lengthRead hp hk ha, ticks_succ, tick_readBody_got rfl hread rfl (hrest _), ticks_zero]
  simp [State.lengthRead, State.replyRead, State.afterReply, hrest, drawn_bytes, hm, replyFrame]

include he in
/-- A reply of at least 4 bytes that is no value for the caller: a bad checksum or a status error (R138). -/
theorem ticks_replyFailed {x : Error} (hlen : body.length + 1 = len.toNat) (hbody : 3 ≤ body.length)
    (ha : u.answers = k :: .bytes [len] :: .bytes body :: rest) (hx : replyValue (len :: body) = .error x) :
    ticks 5 u =
      { u with rxlen := len, rxbuf := len :: body, acc := crcBytes 0 (len :: body.take (body.length - 2))
        }.exchangeFailed x (sendEvents u.cfg u.txbuf (.got [len]) ++
          [Event.read (locate u.cfg u.cfg.cmdTarget) body.length (.got body)]) rest := by
  rw [ticks_add 4 1, ticks_replyRead hp hk hm hlen (by omega) ha, ticks_succ,
    tick_decode_error (s := u.replyRead len body rest) rfl hx he, ticks_zero]
  simp [State.replyRead, State.exchangeFailed, sumReply_cons (len := len) (body := body) (by simpa using hbody)]

end

/-! ### To delivery -/

/-- After the cleanup of a command that interprets nothing: one idle write, whose own error is discarded (R139). -/
def State.released (v : State) (z : Answer) (rest : List Answer) : State :=
  { v with
    session := .sleeping, answers := rest, phase := .done, trace := v.trace ++ [idleEvent v.cfg z.failure] }

/-- A command that `n` phases lead to its cleanup is delivered after it (R140). -/
theorem settle_of_cleanup {v : State} (hn : n + 1 < longestPath) (hv : ticks n s = v) (hp : v.phase = .cleanup)
    (ha : v.answers = z :: rest) (hi : interprets v.op = false) : settle s = (v.released z rest).deliver := by
  have ht : ticks (n + 1) s = v.released z rest := by
    rw [ticks_add n 1, hv, ticks_succ, tick_cleanup hp ha, hi]
    rfl
  rw [settle_of_done hn (ht ▸ rfl), ht]

section
variable {v : State} {later : List Answer} (h : Encodes i s.cfg c) (hl : c.payload.length ≤ 248)
include h hl

/-- Where the exchange begun from Awake leads to `v`, that is delivered (R140). -/
theorem Encodes.settle_awake (hn : n ≤ 5) (hw : c.autoWake = false) (hs : s.session = .awake)
    (hv : ticks n (s.encoded i c) = v) (hp : v.phase = .done) : settle (latch (some i) s) = v.deliver := by
  have ht : ticks (2 + n) (latch (some i) s) = v := by rw [ticks_add, h.ticks_awake hl hw hs, hv]
  have hlt : 2 + n < longestPath := by rw [longestPath]; omega
  rw [settle_of_done hlt (ht ▸ hp), ht]

/-- Where the exchange begun after a good wake reply leads to `v`, that is delivered after the cleanup. -/
theorem Encodes.settle_woken (hn : n ≤ 5) (hw : c.autoWake = true) (ha : s.answers = a :: .bytes wk :: later)
    (hg : GoodWakeReply wk) (hv : ticks n ((s.woken a wk later).encoded i c) = v) (hp : v.phase = .cleanup)
    (hz : v.answers = z :: rest) (hi : interprets v.op = false) :
    settle (latch (some i) s) = (v.released z rest).deliver := by
  have hlt : 5 + n + 1 < longestPath := by rw [longestPath]; omega
  exact settle_of_cleanup hlt (by rw [ticks_add, h.ticks_woken hl hw ha hg, hv]) hp hz hi

/-- Where the wake read leads to the failure `v`, that is delivered after the cleanup (R133). -/
theorem Encodes.settle_wakeFailed (hw : c.autoWake = true) (ha : s.answers = a :: later)
    (hv : tick ((latch (some i) s).wakeWritten a later) = v) (hp : v.phase = .cleanup) (hz : v.answers = z :: rest)
    (hi : interprets v.op = false) : settle (latch (some i) s) = (v.released z rest).deliver :=
  settle_of_cleanup (n := 3 + 1) (by decide)
    (by rw [ticks_add, h.ticks_wakeWritten hl hw ha, ticks_succ, hv, ticks_zero]) hp hz hi

end

end Sys2Proof.Machine
end

-- ==== Proofs: the Command Executor ====
section
/-! EXECUTE (R130 to R143): its refusals, its deliveries and its failures, on the answers at hand. -/

namespace Sys2Proof.Machine

variable {s : State} {i : Instr} {c : Cmd}

/-! ### Refusals -/

/-- A command whose payload does not fit is refused before its session is looked at (R132). -/
theorem Encodes.settle_payloadTooLong (h : Encodes i s.cfg c) (hl : 248 < c.payload.length) :
    settle (latch (some i) s) = { s.ended (some (.refused .payloadTooLong)) none with cmd := c } := by
  have ht : ticks 1 (latch (some i) s) = ((latch (some i) s).raise (.refused .payloadTooLong)).goto .done := by
    rw [ticks_succ, h.tick_latch, ticks_zero, checkCommand_long (by rwa [h.latch_cmd])]
  rw [settle_of_done (n := 1) (by decide) (by rw [ht]; rfl), ht, raise_of_no_error rfl, latch_of_commandOf h.latched]
  rfl

/-- Settles O23: the payload is checked first (`settle_payloadTooLong`), the session second (`settle_notAwake`). -/
theorem executeRefusals : Obligations.ExecuteRefusals := by
  intro s opcode param1 param2 payload autoWake hb
  refine ⟨fun hl => ?_, fun hl hw hs => ?_⟩
  · rw [exec_of_not_busy hb,
      (encodes_execute ⟨opcode, param1, param2, payload, autoWake⟩ s.cfg).settle_payloadTooLong hl]
  · rw [exec_of_not_busy hb, settle_notAwake rfl rfl rfl hl hw hs]

/-! ### Deliveries -/

/-- Settles O25: the exchange of a command from Awake (`settle_fromAwake`), on the frame the encode step builds. -/
theorem executeFromAwakeDelivers : Obligations.ExecuteFromAwakeDelivers := by
  intro s c k len body data status rest hb hm haw hw hl ha hk hlen hbody hd hs
  rw [exec_of_not_busy hb, settle_fromAwake rfl rfl rfl hl hw ((encodes_execute c s.cfg).tick_encode hl) hm haw ha hk
    hlen hbody hd hs]

/-- Settles O24: the wake handshake leads to the exchange of `ticks_exchange`, and the cleanup follows it. -/
theorem executeAutoWakeDelivers : Obligations.ExecuteAutoWakeDelivers := by
  intro s c a k z wk len body data status rest hb hm hw hl ha hg hk hlen hbody hd hs
  have hexchange := ticks_exchange (s := (s.woken a wk (k :: .bytes [len] :: .bytes body :: z :: rest)).encoded
    (.execute c.opcode c.param1 c.param2 c.payload c.autoWake) c) rfl hm rfl hk hlen hbody hd hs
  rw [exec_of_not_busy hb, (encodes_execute c s.cfg).settle_woken hl (n := 5) (le_refl _) hw ha hg hexchange
    (congrArg bodyExit hw) rfl rfl]
  simp [State.exchanged, State.released, State.encoded, State.woken, State.ended, State.deliver, latch]

/-! ### Failures of the wake handshake -/

/-- Settles O26: both failures of the wake read lead to the cleanup (`settle_wakeFailed`). -/
theorem executeWakeFailureStillIdles : Obligations.ExecuteWakeFailureStillIdles := by
  intro s c a r z rest hb hw hl ha
  have h := encodes_execute c s.cfg
  refine ⟨fun e hr => ?_, fun wk hr hlen hbad => ?_⟩ <;> subst hr
  · rw [exec_of_not_busy hb, h.settle_wakeFailed hl hw ha (tick_wakeRead_failed rfl rfl rfl rfl) rfl rfl rfl]
    simp [State.released, State.afterWakeRead, State.wakeWritten, wakeEvents, State.ended, State.deliver, latch,
      commandOf]
  · have hread : ∀ draws, (Answer.bytes wk).outcome 4 draws = .got wk := outcome_bytes hlen
    have hverdict : wakeReplyGood wk = false := Bool.eq_false_iff.2 (mt (wakeReplyGood_iff hlen).1 hbad)
    rw [exec_of_not_busy hb, h.settle_wakeFailed hl hw ha (tick_wakeRead_bad rfl rfl (hread _) hverdict rfl) rfl rfl
      rfl]
    simp [State.released, State.afterWakeRead, State.wakeWritten, wakeEvents, State.ended, State.deliver, latch,
      commandOf, hread, drawn_bytes hlen]

/-! ### Failures of the exchange -/

/-- Settles O27: the failed write ends the exchange (`ticks_writeFailed`), after the wake handshake or from Awake. -/
theorem executeWriteFailureIdlesOnce : Obligations.ExecuteWriteFailureIdlesOnce := by
  intro s c a z wk e rest hb hl
  have h := encodes_execute c s.cfg
  refine ⟨fun hw hg ha => ?_, fun hw hs ha => ?_⟩
  · rw [exec_of_not_busy hb, h.settle_woken hl (n := 1) (by decide) hw ha hg (ticks_writeFailed rfl rfl rfl)
      (congrArg bodyExit hw) rfl rfl]
    simp [State.exchangeFailed, State.released, State.encoded, State.woken, State.ended, State.deliver, latch]
  · rw [exec_of_not_busy hb, h.settle_awake hl (n := 1) (by decide) hw hs (ticks_writeFailed rfl rfl ha)
      (congrArg bodyExit hw)]
    rfl

/-- Settles O28: the exchange ends at the read that failed (`ticks_lengthFailed`, `ticks_bodyFailed`). -/
theorem executeReadFailures : Obligations.ExecuteReadFailures := by
  intro s c k e rest hb hm hs hw hl hk
  have h := encodes_execute c s.cfg
  refine ⟨fun ha => ?_, fun len hlen ha => ?_⟩
  · rw [exec_of_not_busy hb, h.settle_awake hl (n := 3) (by decide) hw hs (ticks_lengthFailed rfl rfl hk ha)
      (congrArg bodyExit hw)]
    rfl
  · rw [exec_of_not_busy hb, h.settle_awake hl (n := 4) (by decide) hw hs (ticks_bodyFailed rfl rfl hk hm hlen ha)
      (congrArg bodyExit hw)]
    simp [State.exchangeFailed, State.encoded, State.ended, State.deliver, latch]

/-- Settles O29, by the exchange that makes no body read (`ticks_lengthBelowTwo`). -/
theorem executeLengthBelowTwo : Obligations.ExecuteLengthBelowTwo := by
  intro s c k len rest hb hm hs hw hl hk hlen ha
  rw [exec_of_not_busy hb, (encodes_execute c s.cfg).settle_awake hl (n := 5) (by decide) hw hs
    (ticks_lengthBelowTwo rfl rfl hk hm hlen ha) (congrArg bodyExit hw)]
  rfl

/-- A 4-byte reply that carries a status other than Success is an error: the policy of R98 outside the wake. -/
theorem replyValue_status {code : Byte} (h : code ≠ 0x00) :
    replyValue (0x04 :: code :: checksum [0x04, code]) =
      .error (if (statusTable.lookup code).isSome then .commandStatus code else .unknownStatus code) := by
  have hd : decodeReply (0x04 :: code :: checksum [0x04, code]) = .ok ⟨[code], some code⟩ :=
    decodeReply_append_checksum (body := [0x04, code]) (le_refl _)
  rw [replyValue, hd]
  simp only [statusPolicyFailsClosed code false]
  rw [if_neg (by simpa using h)]
  cases statusTable.lookup code <;> rfl

/-- Settles O30: the reply decodes to a status that ends the exchange (`replyValue_status`). -/
theorem executeStatusErrors : Obligations.ExecuteStatusErrors := by
  intro s c k code rest hb hm hs hw hl hk hcode ha
  have hfailed := ticks_replyFailed (u := s.encoded (.execute c.opcode c.param1 c.param2 c.payload c.autoWake) c) rfl
    rfl hk hm rfl (by simp) ha (replyValue_status hcode)
  refine ⟨_, exec_of_not_busy hb _, ?_⟩
  rw [(encodes_execute c s.cfg).settle_awake hl (n := 5) (by decide) hw hs hfailed (congrArg bodyExit hw)]
  exact ⟨rfl, hs, rfl, rfl⟩

end Sys2Proof.Machine
end

-- ==== Proofs: the Command Executor against its pseudocode ====
section
/-! EXECUTE against R140, and the traces of R143, which are read off the pseudocode. -/

namespace Sys2Proof.Machine

variable {s : State} {i : Instr} {c : Cmd} {cfg : Cfg}

/-- A command that interprets nothing does what R140 says: `command_stage` up to `Done`, and the delivery. -/
theorem Encodes.settle_agrees (h : Encodes i s.cfg c) (hn : interprets (some i) = false) :
    Agrees s (settle (latch (some i) s)) (refExecute s.cfg c s.world) fun data => some (.bytes data) := by
  have hstage : ∃ n ≤ 11, CommandEnd (latch (some i) s) (ticks n (latch (some i) s)) s.trace
      (refExecute s.cfg c s.world) := by
    have hstage := command_stage (s := latch (some i) s) h.check h.command h.built rfl rfl
    rw [h.latch_cmd] at hstage
    exact hstage
  obtain ⟨n, hn11, ⟨-, -, -, -, hdel, hbusy⟩, hend⟩ := hstage
  have hlt : n < longestPath := Nat.lt_of_le_of_lt hn11 (by decide)
  cases hr : refExecute s.cfg c s.world with
  | hung w =>
    rw [hr] at hend
    obtain ⟨hfix, hp, htrace, hans, hdraws, hsess⟩ := hend
    rw [settle_eq hlt.le rfl hfix]
    exact ⟨hbusy, hp, hdel, hsess, htrace, hans, hdraws⟩
  | raised e w =>
    rw [hr] at hend
    obtain ⟨hp, herr, -, htrace, hans, hdraws, hsess⟩ := hend
    rw [settle_of_done hlt hp]
    exact ⟨rfl, rfl, by simp [hdel, herr], hsess, htrace, hans, hdraws⟩
  | returned v w =>
    rw [hr] at hend
    obtain ⟨hp, herr, hres, htrace, hans, hdraws, hsess⟩ := hend
    rw [settle_of_done hlt (by simpa [hn] using hp)]
    exact ⟨rfl, rfl, by simp [hdel, herr, hres], hsess, htrace, hans, hdraws⟩

/-- Settles O32: EXECUTE is a command that builds its frame and interprets nothing. -/
theorem executeRefinesPseudocode : Obligations.ExecuteRefinesPseudocode := fun s c hb =>
  ⟨_, exec_of_not_busy hb _, (encodes_execute c s.cfg).settle_agrees rfl⟩

/-! ### The shapes of traces -/

/-- The trace of a world as R143 writes traces. -/
def World.shapes (w : World) : List Shape := w.events.map Event.shape

@[simp] theorem shapes_record (w : World) (e : Event) : (w.record e).shapes = w.shapes ++ [e.shape] := by
  simp [World.shapes, World.record]

/-- Where the pseudocode has ended, its trace satisfies `P`, and `Q` if it has returned a value. -/
def Ran.Traces {α : Type} (r : Ran α) (P Q : List Shape → Prop) : Prop :=
  match r with
  | .hung _ => True
  | .raised _ w => P w.shapes
  | .returned _ w => Q w.shapes

section
variable {α β : Type} {r : Ran α} {P Q R : List Shape → Prop}

theorem Ran.Traces.mono {P' Q' : List Shape → Prop} (h : r.Traces P Q) (hP : ∀ l, P l → P' l)
    (hQ : ∀ l, Q l → Q' l) : r.Traces P' Q' := by
  cases r with
  | hung => trivial
  | raised e w => exact hP _ h
  | returned v w => exact hQ _ h

/-- A raise that is ignored goes on like a return (R112). -/
theorem Ran.Traces.ignored {r : Ran Unit} (h : r.Traces Q Q) : r.ignored.Traces P Q := by
  cases r with
  | hung => trivial
  | raised e w => exact h
  | returned v w => exact h

theorem Ran.Traces.andThen {next : α → World → Ran β} (h : r.Traces P Q)
    (hnext : ∀ v w, Q w.shapes → (next v w).Traces P R) : (r.andThen next).Traces P R := by
  cases r with
  | hung => trivial
  | raised e w => exact h
  | returned v w => exact hnext v w h

/-- The cleanup follows a raise and a return alike (R139). -/
theorem Ran.Traces.finally {cleanup : World → Ran Unit} (h : r.Traces P P)
    (hcleanup : ∀ w, P w.shapes → (cleanup w).Traces Q Q) : (r.finally cleanup).Traces Q Q := by
  cases r with
  | hung => trivial
  | raised e w =>
    have hw := hcleanup w h
    rw [Ran.finally]
    cases hc : cleanup w <;> rw [hc] at hw <;> exact hw
  | returned v w =>
    have hw := hcleanup w h
    rw [Ran.finally]
    cases hc : cleanup w <;> rw [hc] at hw <;> exact hw

end

/-! ### One trace per line of the pseudocode -/

theorem refWrite_traces (cfg : Cfg) (t : Target) (bytes : List Byte) (w : World) :
    (refWrite cfg t bytes w).Traces (· = w.shapes ++ [.write (locate cfg t) bytes.length])
      (· = w.shapes ++ [.write (locate cfg t) bytes.length]) := by
  unfold refWrite
  split
  · trivial
  · split <;> exact shapes_record ..

theorem refRead_traces (cfg : Cfg) (t : Target) (n : Nat) (w : World) :
    (refRead cfg t n w).Traces (· = w.shapes ++ [.read (locate cfg t) n])
      (· = w.shapes ++ [.read (locate cfg t) n]) := by
  unfold refRead
  split
  · trivial
  · dsimp only
    split <;> exact shapes_record ..

theorem refDecode_traces {P : List Shape → Prop} (f : List Byte) {w : World} (h : P w.shapes) :
    (refDecode f w).Traces P P := by
  rw [refDecode_eq]
  cases replyValue f <;> exact h

/-- The shapes of a wake handshake (R111). -/
def wakeShapes (cfg : Cfg) : List Shape :=
  [.write (locate cfg cfg.wakeTarget) 0, .delay cfg.tWakeSettle, .read (locate cfg cfg.cmdTarget) 4]

theorem refWake_traces (cfg : Cfg) (w : World) :
    (refWake cfg w).Traces (· = w.shapes ++ wakeShapes cfg) (· = w.shapes ++ wakeShapes cfg) := by
  refine (refWrite_traces cfg cfg.wakeTarget [] w).ignored.andThen fun _ w1 h1 => ?_
  have hread := refRead_traces cfg cfg.cmdTarget 4 (w1.record (.delay cfg.tWakeSettle))
  rw [shapes_record, h1, List.append_assoc, List.append_assoc] at hread
  cases hr : refRead cfg cfg.cmdTarget 4 (w1.record (.delay cfg.tWakeSettle)) with
  | hung w2 => trivial
  | raised e w2 => rw [hr] at hread; exact hread
  | returned r w2 =>
    rw [hr] at hread
    dsimp only
    rw [refJudgeWake_eq]
    split <;> exact hread

theorem refPower_traces (cfg : Cfg) (t : Target) (w : World) :
    (refPower cfg t w).Traces (· = w.shapes ++ [.write (locate cfg t) 0])
      (· = w.shapes ++ [.write (locate cfg t) 0]) := by
  have h := refWrite_traces cfg t [] w
  unfold refPower
  cases hr : refWrite cfg t [] w <;> rw [hr] at h <;> exact h

/-- The traces of a command exchange that follows the trace `before`: up to the command write, to the length read, or to
the body read of `L - 1` bytes (R134 to R137). -/
def ExchangeTrace (cfg : Cfg) (n : Nat) (before l : List Shape) : Prop :=
  let cmd := locate cfg cfg.cmdTarget
  let write : List Shape := [.write cmd (7 + n)]
  let length : List Shape := [.delay cfg.tExec, .read cmd 1]
  l = before ++ write ∨ l = before ++ write ++ length ∨
    ∃ L, 2 ≤ L ∧ L ≤ 255 ∧ l = before ++ write ++ length ++ [.read cmd (L - 1)]

/-- Each transport call of the exchange may be its last; the length byte is the `L` of the body read. -/
theorem refExchange_traces (hm : cfg.rxMode = .remainder) (c : Cmd) (w : World) :
    (refExchange cfg c w).Traces (ExchangeTrace cfg c.payload.length w.shapes)
      (ExchangeTrace cfg c.payload.length w.shapes) := by
  have hframe : (commandHead c ++ checksum (commandHead c)).length = 7 + c.payload.length := by simp; omega
  have hwrite := refWrite_traces cfg cfg.cmdTarget (commandHead c ++ checksum (commandHead c)) w
  rw [hframe] at hwrite
  refine (hwrite.mono (fun _ => .inl) fun _ => id).andThen fun _ w1 h1 => ?_
  have hlength := refRead_traces cfg cfg.cmdTarget 1 (w1.record (.delay cfg.tExec))
  rw [shapes_record, h1, Event.shape, List.append_assoc _ [Shape.delay _]] at hlength
  refine (hlength.mono (fun _ => .inr ∘ .inl) fun _ => id).andThen fun r1 w2 h2 => ?_
  refine Ran.Traces.andThen (Q := ExchangeTrace cfg c.payload.length w.shapes) ?_ fun r2 w3 => refDecode_traces _
  rw [hm, bodyReadLength]
  by_cases hL : (r1.headD 0).toNat ≥ 2
  · rw [if_pos hL]
    have hbody := refRead_traces cfg cfg.cmdTarget ((r1.headD 0).toNat - 1) w2
    rw [h2] at hbody
    have hlast : ∀ l, l = _ → ExchangeTrace cfg c.payload.length w.shapes l := fun _ hl =>
      .inr (.inr ⟨(r1.headD 0).toNat, hL, Nat.le_of_lt_succ (r1.headD 0).isLt, hl⟩)
    exact hbody.mono hlast hlast
  · rw [if_neg hL]
    exact .inr (.inl h2)

/-- The traces of the body of an autoWake command: a wake handshake, and an exchange where it succeeded (R133). -/
def BodyTrace (cfg : Cfg) (n : Nat) (before l : List Shape) : Prop :=
  l = before ++ wakeShapes cfg ∨ ExchangeTrace cfg n (before ++ wakeShapes cfg) l

theorem refBody_traces (hm : cfg.rxMode = .remainder) (c : Cmd) (w : World) :
    ((refWake cfg w).andThen fun _ w => refExchange cfg c w).Traces (BodyTrace cfg c.payload.length w.shapes)
      (BodyTrace cfg c.payload.length w.shapes) := by
  refine ((refWake_traces cfg w).mono (fun _ => .inl) fun _ => id).andThen fun _ w1 h1 => ?_
  have h := refExchange_traces hm c w1
  rw [h1] at h
  exact h.mono (fun _ => .inr) fun _ => .inr

/-- The traces of EXECUTE from a session, after the trace `before`: nothing for a refusal; with autoWake a wake
handshake, an exchange where the wake succeeded, and the idle write; else an exchange alone (R143). -/
structure ExecuteTrace (cfg : Cfg) (c : Cmd) (session : Session) (before l : List Shape) : Prop where
  tooLong : 248 < c.payload.length → l = before
  autoWake : c.payload.length ≤ 248 → c.autoWake = true →
    ∃ body, BodyTrace cfg c.payload.length before body ∧ l = body ++ [.write (locate cfg cfg.idleTarget) 0]
  awake : c.payload.length ≤ 248 → c.autoWake = false → session = .awake →
    ExchangeTrace cfg c.payload.length before l
  notAwake : c.autoWake = false → session ≠ .awake → l = before

/-- The branches of R140: the two refusals, the body with its cleanup, and the exchange alone. -/
theorem refExecute_traces (hm : cfg.rxMode = .remainder) (c : Cmd) (w : World) :
    (refExecute cfg c w).Traces (ExecuteTrace cfg c w.session w.shapes) (ExecuteTrace cfg c w.session w.shapes) := by
  unfold refExecute
  split
  next hlong => exact ⟨fun _ => rfl, fun hl => by omega, fun hl => by omega, fun _ _ => rfl⟩
  split
  next hgate =>
    obtain ⟨hw, hs⟩ := hgate
    exact ⟨fun _ => rfl, fun _ hw' => by simp [hw] at hw', fun _ _ hs' => absurd hs' hs, fun _ _ => rfl⟩
  split
  next hlong _ hw =>
    refine (refBody_traces hm c w).finally fun w2 h2 => ?_
    have hrow : ∀ l, l = _ → ExecuteTrace cfg c w.session w.shapes l := fun l hl =>
      ⟨fun hl' => by omega, fun _ _ => ⟨_, h2, hl⟩, fun _ hw' => by simp [hw] at hw',
        fun hw' => by simp [hw] at hw'⟩
    exact (refPower_traces cfg cfg.idleTarget w2).mono hrow hrow
  next hlong hgate hw =>
    have hrow : ∀ l, ExchangeTrace cfg c.payload.length w.shapes l → ExecuteTrace cfg c w.session w.shapes l :=
      fun l hl => ⟨fun hl' => by omega, fun _ hw' => absurd hw' hw, fun _ _ _ => hl,
        fun hw' hs => absurd ⟨hw', hs⟩ hgate⟩
    exact (refExchange_traces hm c w).mono hrow hrow

/-- An operation that agrees with its pseudocode and has delivered has made a trace of the pseudocode. -/
theorem Agrees.traces {α : Type} {t : State} {r : Ran α} {value : α → Option Result} {P : List Shape → Prop}
    (h : Agrees s t r value) (hfree : t.busy = false) (hr : r.Traces P P) :
    ∃ events, t.trace = s.trace ++ events ∧ P (events.map Event.shape) := by
  cases r with
  | hung w =>
    obtain ⟨hbusy, -⟩ := h
    simp [hfree] at hbusy
  | raised e w =>
    obtain ⟨-, -, -, -, htrace, -⟩ := h
    exact ⟨w.events, htrace, hr⟩
  | returned v w =>
    obtain ⟨-, -, -, -, htrace, -⟩ := h
    exact ⟨w.events, htrace, hr⟩

/-- Settles O35: EXECUTE makes the trace of its pseudocode. -/
theorem executeTraceRows : Obligations.ExecuteTraceRows := by
  intro s t c hb hm h hfree
  obtain rfl := eq_settle_of_exec hb h
  obtain ⟨events, htrace, hrow⟩ :=
    ((encodes_execute c s.cfg).settle_agrees rfl).traces hfree (refExecute_traces hm c s.world)
  refine ⟨events, htrace, fun hl => List.map_eq_nil_iff.1 (hrow.tooLong hl), fun hl hw => ?_, hrow.awake,
    fun hw hs => List.map_eq_nil_iff.1 (hrow.notAwake hw hs)⟩
  obtain ⟨body, rfl | rfl | rfl | ⟨L, hL, hL', rfl⟩, hidle⟩ := hrow.autoWake hl hw
  · exact .inl hidle
  · exact .inr (.inl hidle)
  · exact .inr (.inr (.inl hidle))
  · exact .inr (.inr (.inr ⟨L, hL, hL', hidle⟩))

end Sys2Proof.Machine
end

-- ==== Proofs: the high-level commands ====
section
/-! SELFTEST and INFO (R150 to R155): EXECUTE of their Command with autoWake, then the interpretation of the bytes it
returned, on the answers at hand and against the pseudocode. -/

namespace Sys2Proof.Machine

variable {s v : State} {i : Instr} {c : Cmd} {a k z : Answer} {n : Nat} {len : Byte} {wk body data : List Byte}
  {rest : List Answer}

/-! ### The interpretation -/

/-- What SELFTEST and INFO make of the bytes that EXECUTE returned (R151, R154). -/
def interpretation (i : Instr) (data : List Byte) : Except Error Result :=
  match i with
  | .info => (infoExtract data).map Result.info
  | _ => .ok (.selfTest (selftestInterpret (data.headD 0)))

/-- An interpretation has ended with `x` (R17, R181). -/
def State.interpreted (s : State) (x : Except Error Result) : State :=
  match x with
  | .error e => { s with phase := .done, err := some e, result := none }
  | .ok r => { s with phase := .done, result := some r }

theorem interpreted_phase (s : State) (x : Except Error Result) : (s.interpreted x).phase = .done := by
  cases x <;> rfl

theorem selftest_or_info_of_interprets (hi : interprets (some i) = true) : i = .selftest ∨ i = .info := by
  cases i <;> simp_all [interprets]

/-- The interpretation of data, of which there is always a first byte (`replyValue_ok_cons`). -/
theorem tick_interpret (hi : interprets (some i) = true) (hp : s.phase = .interpret) (ho : s.op = some i)
    (he : s.err = none) (hr : s.result = some (.bytes data)) (hdata : data ≠ []) :
    tick s = s.interpreted (interpretation i data) := by
  rcases selftest_or_info_of_interprets hi with rfl | rfl
  · obtain ⟨m, others, rfl⟩ := List.exists_cons_of_ne_nil hdata
    exact tick_interpret_selftest hp ho hr
  · rw [interpretation]
    cases hx : infoExtract data with
    | error e => exact tick_interpret_info_error hp ho hr hx he
    | ok report => exact tick_interpret_info_ok hp ho hr hx

/-! ### To delivery -/

/-- A command that failed is delivered after its cleanup; the interpretation is not reached (R140). -/
theorem settle_of_failed_cleanup (hn : n + 1 < longestPath) (hv : ticks n s = v) (hp : v.phase = .cleanup)
    (he : v.err ≠ none) (ha : v.answers = z :: rest) : settle s = (v.released z rest).deliver := by
  have hfailed : ¬ (interprets v.op && v.err.isNone) = true := by simp [he]
  have ht : ticks (n + 1) s = v.released z rest := by
    rw [ticks_add n 1, hv, ticks_succ, ticks_zero, tick_cleanup hp ha, if_neg hfailed]
    rfl
  rw [settle_of_done hn (ht ▸ rfl), ht]

/-- Data is interpreted after the cleanup, and what the interpretation ends with is delivered (R150, R153). -/
theorem settle_of_interpreted_cleanup (hn : n + 2 < longestPath) (hv : ticks n s = v) (hp : v.phase = .cleanup)
    (hi : interprets (some i) = true) (ho : v.op = some i) (he : v.err = none) (hr : v.result = some (.bytes data))
    (hdata : data ≠ []) (ha : v.answers = z :: rest) :
    settle s = ((v.released z rest).interpreted (interpretation i data)).deliver := by
  have hclean : (interprets v.op && v.err.isNone) = true := by rw [ho, hi, he]; rfl
  have hcleanup : tick v = { v.released z rest with phase := .interpret } := by
    rw [tick_cleanup hp ha, if_pos hclean]
    rfl
  have ht : ticks (n + 2) s = (v.released z rest).interpreted (interpretation i data) := by
    rw [ticks_add n 2, hv, ticks_succ, hcleanup, ticks_succ, ticks_zero,
      tick_interpret (s := { v.released z rest with phase := .interpret }) hi rfl ho he hr hdata]
    cases interpretation i data <;> rfl
  rw [settle_of_done hn (ht ▸ interpreted_phase _ _), ht]

/-! ### On the answers at hand -/

theorem encodes_selftest (cfg : Cfg) : Encodes .selftest cfg (selftestCmd cfg.opcSelftest true) :=
  ⟨rfl, rfl, rfl, rfl⟩

theorem encodes_info (cfg : Cfg) : Encodes .info cfg (infoCmd cfg.opcRead true) :=
  ⟨rfl, rfl, rfl, rfl⟩

/-- EXECUTE with autoWake of the Command `c`, begun in `s`, has received the reply `len :: body` and made its idle
write (R140, R143 row 1). -/
def State.replied (s : State) (c : Cmd) (a z : Answer) (wk : List Byte) (len : Byte) (body : List Byte)
    (rest : List Answer) : State :=
  { s with
    session := .sleeping, cmd := c, txbuf := commandHead c ++ checksum (commandHead c), rxlen := len,
    rxbuf := len :: body, acc := crcBytes 0 (len :: body.take (body.length - 2)), answers := rest,
    trace := s.trace ++ wakeEvents s.cfg a.failure (.got wk) ++
      sendEvents s.cfg (commandHead c ++ checksum (commandHead c)) (.got [len]) ++
      [.read (locate s.cfg s.cfg.cmdTarget) body.length (.got body), idleEvent s.cfg z.failure] }

/-- The delivery of an interpretation: an error or a result. -/
def State.endedWith (s : State) (x : Except Error Result) : State :=
  match x with
  | .error e => s.ended (some e) none
  | .ok r => s.ended none (some r)

section
variable (h : Encodes i s.cfg c) (hi : interprets (some i) = true) (hl : c.payload.length ≤ 248)
  (hw : c.autoWake = true) (hm : s.cfg.rxMode = .remainder)
  (ha : s.answers = a :: .bytes wk :: k :: .bytes [len] :: .bytes body :: z :: rest) (hg : GoodWakeReply wk)
  (hk : k.failure = none) (hlen : body.length + 1 = len.toNat)
include h hl hw hm ha hg hk hlen

include hi in
/-- A reply that decodes to data or to Success is interpreted after the cleanup (R150, R153). -/
theorem Encodes.settle_interprets {status : Option Byte} (hd : decodeReply (len :: body) = .ok ⟨data, status⟩)
    (hs : status = none ∨ status = some 0x00) :
    settle (latch (some i) s) = (s.replied c a z wk len body rest).endedWith (interpretation i data) := by
  have hbody : 1 ≤ body.length := by
    obtain ⟨hlong, -⟩ := decodeReply_ok hd
    simp only [List.length_cons] at hlong
    omega
  have hdata : data ≠ [] := by
    obtain ⟨m, r, rfl⟩ := replyValue_ok_cons (replyValue_of_decodeReply hd hs)
    exact List.cons_ne_nil m r
  have hexchange := ticks_exchange (s := (s.woken a wk (k :: .bytes [len] :: .bytes body :: z :: rest)).encoded i c)
    rfl hm rfl hk hlen hbody hd hs
  rw [settle_of_interpreted_cleanup (n := 5 + 5) (by decide)
    (by rw [ticks_add, h.ticks_woken hl hw ha hg, hexchange]) (congrArg bodyExit hw) hi rfl rfl rfl hdata rfl]
  cases interpretation i data <;>
    simp [State.interpreted, State.endedWith, State.replied, State.exchanged, State.released, State.encoded,
      State.woken, State.ended, State.deliver, latch]

/-- A 4-byte reply or a longer one that is no value for the caller: its error is delivered after the cleanup, and
nothing is interpreted (R138, R152). -/
theorem Encodes.settle_replyFailed {x : Error} (hbody : 3 ≤ body.length) (hx : replyValue (len :: body) = .error x) :
    settle (latch (some i) s) = (s.replied c a z wk len body rest).endedWith (.error x) := by
  have hfailed := ticks_replyFailed (u := (s.woken a wk (k :: .bytes [len] :: .bytes body :: z :: rest)).encoded i c)
    rfl rfl hk hm hlen hbody rfl hx
  rw [settle_of_failed_cleanup (n := 5 + 5) (by decide)
    (by rw [ticks_add, h.ticks_woken hl hw ha hg, hfailed]) (congrArg bodyExit hw) (Option.some_ne_none x) rfl]
  simp [State.endedWith, State.replied, State.exchangeFailed, State.released, State.encoded, State.woken, State.ended,
    State.deliver, latch]

end

/-- Settles O38: the exchange of `settle_interprets`, with the Command of SELFTEST and the first byte interpreted. -/
theorem selftestDelivers : Obligations.SelftestDelivers := by
  intro s a k z wk len mask body others status rest hb hm ha hg hk hlen _ hd hs
  rw [exec_of_not_busy hb,
    (encodes_selftest s.cfg).settle_interprets rfl (Nat.zero_le _) rfl hm ha hg hk hlen hd hs]
  rfl

/-- Settles O39: the mask is the status of a 4-byte reply, and the policy of R98 makes it an error
(`replyValue_status`). -/
theorem selftestMaskReadAsStatus : Obligations.SelftestMaskReadAsStatus := by
  intro s a k z wk mask rest hb hm hmask hg hk ha
  refine ⟨_, exec_of_not_busy hb _, ?_⟩
  rw [(encodes_selftest s.cfg).settle_replyFailed (Nat.zero_le _) rfl hm ha hg hk rfl (by simp)
    (replyValue_status hmask)]
  exact ⟨rfl, rfl, rfl⟩

/-- R154 in the byte ranges of the reply. -/
theorem interpretation_info_ok {r : List Byte} (h : 13 ≤ r.length) :
    interpretation .info r = .ok (.info ⟨r.take 4 ++ (r.take 13).drop 8, (r.take 8).drop 4⟩) := by
  rw [interpretation, infoExtract, if_neg (by omega), List.drop_take, List.drop_take]
  rfl

theorem interpretation_info_short {r : List Byte} (h : r.length < 13) :
    interpretation .info r = .error .shortResponse := by
  rw [interpretation, infoExtract, if_pos h]
  rfl

/-- Settles O40: the exchange of `settle_interprets`, with the Command of INFO and the two byte ranges of the reply. -/
theorem infoDelivers : Obligations.InfoDelivers := by
  intro s a k z wk len body r rest hb hm ha hg hk hlen hd hr
  rw [exec_of_not_busy hb,
    (encodes_info s.cfg).settle_interprets rfl (Nat.zero_le _) rfl hm ha hg hk hlen hd (.inl rfl),
    interpretation_info_ok hr]
  rfl

/-- Settles O41: EXECUTE succeeded, and the interpretation raises after the cleanup. -/
theorem infoShortResponse : Obligations.InfoShortResponse := by
  intro s a k z wk len body r status rest hb hm ha hg hk hlen hd hs hr
  refine ⟨_, exec_of_not_busy hb _, ?_⟩
  rw [(encodes_info s.cfg).settle_interprets rfl (Nat.zero_le _) rfl hm ha hg hk hlen hd hs,
    interpretation_info_short hr]
  exact ⟨rfl, rfl, rfl, rfl⟩

end Sys2Proof.Machine
end

-- ==== Proofs: the high-level commands against their pseudocode ====
section
/-! SELFTEST and INFO against R150 and R153: the command up to its interpretation is R140 (`command_stage`), and the
interpretation is the line of the pseudocode that follows it. -/

namespace Sys2Proof.Machine

variable {s : State} {i : Instr} {c : Cmd} {α β : Type}

/-! ### What EXECUTE returns is not empty -/

/-- Whatever value the pseudocode returns, `P` holds of it. -/
def Ran.Yields (r : Ran α) (P : α → Prop) : Prop :=
  ∀ value w, r = .returned value w → P value

theorem Ran.Yields.andThen {r : Ran α} {next : α → World → Ran β} {P : β → Prop}
    (hnext : ∀ value w, (next value w).Yields P) : (r.andThen next).Yields P := by
  cases r with
  | hung => exact fun _ _ h => nomatch h
  | raised => exact fun _ _ h => nomatch h
  | returned value w => exact hnext value w

/-- The cleanup changes no value (R139). -/
theorem Ran.Yields.finally {r : Ran α} {cleanup : World → Ran Unit} {P : α → Prop} (h : r.Yields P) :
    (r.finally cleanup).Yields P := by
  intro value w' hr
  cases r with
  | hung => cases hr
  | raised e w =>
    simp only [Ran.finally] at hr
    split at hr <;> cases hr
  | returned v w =>
    simp only [Ran.finally] at hr
    split at hr <;> cases hr <;> exact h value w rfl

theorem refDecode_yields (f : List Byte) (w : World) : (refDecode f w).Yields (· ≠ []) := by
  intro data w' h
  rw [refDecode_eq] at h
  cases hv : replyValue f with
  | error e => rw [hv] at h; cases h
  | ok d =>
    rw [hv] at h
    cases h
    obtain ⟨m, r, rfl⟩ := replyValue_ok_cons hv
    exact List.cons_ne_nil m r

theorem refExchange_yields (cfg : Cfg) (c : Cmd) (w : World) : (refExchange cfg c w).Yields (· ≠ []) :=
  .andThen fun _ _ => .andThen fun _ _ => .andThen fun _ => refDecode_yields _

theorem refExecute_yields (cfg : Cfg) (c : Cmd) (w : World) : (refExecute cfg c w).Yields (· ≠ []) := by
  unfold refExecute
  split_ifs
  · exact fun _ _ h => nomatch h
  · exact fun _ _ h => nomatch h
  · exact .finally (.andThen fun _ => refExchange_yields cfg c)
  · exact refExchange_yields cfg c w

/-! ### Agreement -/

/-- A line of the pseudocode that computes `x` and touches nothing. -/
def Ran.ofExcept (x : Except Error α) (w : World) : Ran α :=
  match x with
  | .error e => .raised e w
  | .ok value => .returned value w

/-- A command up to its delivery or its interpretation, begun by acceptance in `s` (R140). -/
theorem Encodes.command_end (h : Encodes i s.cfg c) :
    ∃ n ≤ 11, CommandEnd (latch (some i) s) (ticks n (latch (some i) s)) s.trace (refExecute s.cfg c s.world) := by
  have hstage := command_stage (s := latch (some i) s) h.check h.command h.built rfl rfl
  rw [h.latch_cmd] at hstage
  exact hstage

/-- A command with autoWake that interprets does what R140 and then its interpretation `f` say: `command_end` up to
the interpretation, `tick_interpret`, and the delivery. -/
theorem Encodes.settle_interprets_agrees (h : Encodes i s.cfg c) (hi : interprets (some i) = true)
    (hw : c.autoWake = true) {f : List Byte → Except Error α} {value : α → Result}
    (hf : ∀ data, interpretation i data = (f data).map value) :
    Agrees s (settle (latch (some i) s)) ((refExecute s.cfg c s.world).andThen fun data => Ran.ofExcept (f data))
      fun v => some (value v) := by
  obtain ⟨n, hn11, ⟨-, hop, -, -, hdel, hbusy⟩, hend⟩ := h.command_end
  have hlt : n + 1 < longestPath := Nat.lt_of_le_of_lt (Nat.succ_le_succ hn11) (by decide)
  cases hr : refExecute s.cfg c s.world with
  | hung w =>
    rw [hr] at hend
    obtain ⟨hfix, hp, htrace, hans, hdraws, hsess⟩ := hend
    rw [settle_eq (n := n) (by omega) rfl hfix]
    exact ⟨hbusy, hp, hdel, hsess, htrace, hans, hdraws⟩
  | raised e w =>
    rw [hr] at hend
    obtain ⟨hp, herr, -, htrace, hans, hdraws, hsess⟩ := hend
    rw [settle_of_done (n := n) (by omega) hp]
    exact ⟨rfl, rfl, by simp [hdel, herr], hsess, htrace, hans, hdraws⟩
  | returned data w =>
    rw [hr] at hend
    obtain ⟨hp, herr, hres, htrace, hans, hdraws, hsess⟩ := hend
    have hinterpret : (ticks n (latch (some i) s)).phase = .interpret := by
      simpa [hi, h.latched, hw] using hp
    have ht : ticks (n + 1) (latch (some i) s) = (ticks n (latch (some i) s)).interpreted ((f data).map value) := by
      rw [ticks_add, ticks_succ, ticks_zero, ← hf,
        tick_interpret hi hinterpret hop herr hres (refExecute_yields _ _ _ _ _ hr)]
    rw [settle_of_done hlt (ht ▸ interpreted_phase _ _), ht, Ran.andThen]
    cases f data with
    | error e => exact ⟨rfl, rfl, by simp [State.interpreted, Except.map, hdel], hsess, htrace, hans, hdraws⟩
    | ok v => exact ⟨rfl, rfl, by simp [State.interpreted, Except.map, hdel, herr], hsess, htrace, hans, hdraws⟩

theorem refSelftest_eq (cfg : Cfg) (w : World) : refSelftest cfg w =
    (refExecute cfg (selftestCmd cfg.opcSelftest true) w).andThen fun data =>
      Ran.ofExcept (.ok (selftestInterpret (data.headD 0))) := rfl

theorem refInfo_eq (cfg : Cfg) (w : World) : refInfo cfg w =
    (refExecute cfg (infoCmd cfg.opcRead true) w).andThen fun data => Ran.ofExcept (infoExtract data) := by
  rw [refInfo]
  congr
  funext data w'
  cases infoExtract data <;> rfl

/-- Settles O34: each of the two is EXECUTE of its Command and then its interpretation. -/
theorem highLevelCommandsRefinePseudocode : Obligations.HighLevelCommandsRefinePseudocode := by
  intro s hb
  refine ⟨⟨_, exec_of_not_busy hb _, ?_⟩, ⟨_, exec_of_not_busy hb _, ?_⟩⟩
  · rw [refSelftest_eq]
    exact (encodes_selftest s.cfg).settle_interprets_agrees rfl rfl fun _ => rfl
  · rw [refInfo_eq]
    exact (encodes_info s.cfg).settle_interprets_agrees rfl rfl fun _ => rfl

end Sys2Proof.Machine
end

-- ==== Proofs: nothing stops the block ====
section
/-! R182: every error is delivered on the result port, so each way a step can go ends in a next state. -/

namespace Sys2Proof.Machine

/-- A block that is not busy and takes no request waits (R17). -/
theorem step_of_takeHeld_none {s : State} (hb : s.busy = false) (ht : takeHeld s = none) : step s = .next s := by
  simp [step, hb, ht]

/-- Settles O46: an operation answers what `perform` does, and a step goes on with the operation in flight, waits,
runs the instruction it takes, or delivers the refusal of a request that names none. -/
theorem nothingStopsTheBlock : Obligations.NothingStopsTheBlock := by
  refine ⟨fun s => ?_, fun i s => ⟨_, exec_eq i s⟩⟩
  cases hb : s.busy with
  | true => exact ⟨_, step_of_busy hb⟩
  | false =>
    cases ht : takeHeld s with
    | none => exact ⟨_, step_of_takeHeld_none hb ht⟩
    | some taken =>
      obtain ⟨w, s'⟩ := taken
      cases hd : decode w with
      | ok i => exact ⟨_, (stepRunsDecodedInstruction s s' w i hb ht hd).trans (exec_eq i s')⟩
      | error e => exact ⟨_, step_of_decode_error hb ht hd⟩

end Sys2Proof.Machine
end

-- ==== Proofs: waiting and construction ====
section
/-! Waiting (R17, R205): a step changes nothing where a call has not returned or nothing is held. Construction (R201):
only between operations. -/

namespace Sys2Proof.Machine

variable {s : State}

/-- A transport phase, one whose call is issued, does nothing until the call returns (R205). -/
theorem tick_of_no_answer (ha : s.answers = []) (hp : s.phase ∈ transportPhases)
    (hr : s.phase = .readBody → bodyReadLength s.cfg.rxMode s.rxlen ≠ none) : tick s = s := by
  simp only [transportPhases, List.mem_cons, List.not_mem_nil, or_false] at hp
  rcases hp with hp | hp | hp | hp | hp | hp | hp
  · exact tick_wakeWrite_nil hp ha
  · exact tick_wakeRead_nil hp ha
  · exact tick_cmdWrite_nil hp ha
  · exact tick_readLen_nil hp ha
  · obtain ⟨n, hn⟩ := Option.ne_none_iff_exists'.1 (hr hp)
    exact tick_readBody_nil hp hn ha
  · exact tick_cleanup_nil hp ha
  · exact tick_powerWrite_nil hp ha

theorem step_of_tick_eq (hb : s.busy = true) (ht : tick s = s) : step s = .next s := by
  rw [step_of_busy hb, settle, ticks_fixed ht]

/-- Settles O48: the phase of the busy block waits for its call; the idle block has no request to take. -/
theorem waitingChangesNothing : Obligations.WaitingChangesNothing :=
  ⟨fun _ hb ha hp hr => step_of_tick_eq hb (tick_of_no_answer ha hp hr),
    fun s hb hh => step_of_takeHeld_none hb (anyHeldRequestIsTaken.1 s hh)⟩

/-- Settles O51: the admitted construction rebuilds the block, and its records and held requests stay. -/
theorem constructionOnlyWhenNotBusy : Obligations.ConstructionOnlyWhenNotBusy := fun s cfg =>
  ⟨fun hb => by simp [stimulate, hb],
    fun hb => ⟨s.rebuild cfg, by simp [stimulate, hb], rfl, rfl, rfl, rfl, rfl, rfl, rfl, rfl⟩⟩

end Sys2Proof.Machine
end

-- ==== Proofs: the bounds of an operation ====
section
/-! Each phase makes at most one event and one call, and the arrows of R17 leave room for eight and six (R143, R205).
What has not ended within them waits, and goes on as if its later answers had been at hand. -/

namespace Sys2Proof.Machine

variable {s : State}

/-! ### What one phase adds to the records -/

/-- From `s` to `t` neither an event was made nor an answer consumed. -/
def Quiet (s t : State) : Prop := t.trace = s.trace ∧ t.answers = s.answers

/-- From `s` to `t` one transport call has returned: it is one event and has consumed one answer (R39, R44). -/
def Calls (s t : State) : Prop := ∃ e a, t.trace = s.trace ++ [e] ∧ s.answers = a :: t.answers

theorem Calls.of_busWrite {t : Target} {bytes : List Byte} {f : Option Nat} {u v : State}
    (h : s.busWrite t bytes = some (f, u)) (hv : Quiet u v) : Calls s v := by
  obtain ⟨a, rest, ha, -, rfl⟩ := busWrite_some h
  exact ⟨_, a, hv.1, by rw [ha, hv.2]⟩

theorem Calls.of_busRead {t : Target} {n : Nat} {o : ReadOutcome} {u v : State}
    (h : s.busRead t n = some (o, u)) (hv : Quiet u v) : Calls s v := by
  obtain ⟨a, rest, ha, -, rfl⟩ := busRead_some h
  exact ⟨_, a, hv.1, by rw [ha, hv.2]⟩

theorem Calls.of_powerDown {t : Target} {f : Option Nat} {u v : State}
    (h : s.powerDown t = some (f, u)) (hv : Quiet u v) : Calls s v := by
  obtain ⟨a, rest, ha, -, rfl⟩ := powerDown_some h
  exact ⟨_, a, hv.1, by rw [ha, hv.2]⟩

theorem phaseCheck_quiet (s : State) : Quiet s (phaseCheck s) := by
  have hcommand : Quiet s (checkCommand s) := by fun_cases checkCommand s <;> simp [Quiet]
  fun_cases phaseCheck s
  case case3 =>
    fun_cases checkEncode s
    · simp [Quiet]
    · rename_i hb
      obtain rfl := buildFrame_some hb
      exact ⟨rfl, rfl⟩
  case case4 bytes _ => fun_cases checkDecode bytes s <;> simp [Quiet]
  case case1 => simp [Quiet]
  case case2 => exact ⟨rfl, rfl⟩
  case case5 => exact ⟨rfl, rfl⟩
  case case11 => exact ⟨rfl, rfl⟩
  case case12 => exact ⟨rfl, rfl⟩
  case case13 => exact ⟨rfl, rfl⟩
  all_goals exact hcommand

theorem phaseEncode_quiet (s : State) : Quiet s (phaseEncode s) := by
  fun_cases phaseEncode s
  · exact ⟨rfl, rfl⟩
  · simp [Quiet]
  · rename_i hb
    obtain rfl := buildFrame_some hb
    exact ⟨rfl, rfl⟩

theorem phaseDecode_quiet (s : State) : Quiet s (phaseDecode s) := by
  unfold phaseDecode
  split <;> simp [Quiet]

theorem phaseInterpret_quiet (s : State) : Quiet s (phaseInterpret s) := by
  have hselftest : Quiet s (interpretSelftest s) := by fun_cases interpretSelftest s <;> exact ⟨rfl, rfl⟩
  have hinfo : Quiet s (interpretInfo s) := by fun_cases interpretInfo s <;> simp [Quiet]
  unfold phaseInterpret
  split
  · exact hselftest
  · exact hinfo
  · exact ⟨rfl, rfl⟩

theorem phaseWakeWrite_calls (s : State) : Quiet s (phaseWakeWrite s) ∨ Calls s (phaseWakeWrite s) := by
  fun_cases phaseWakeWrite s with
  | case1 => exact .inl ⟨rfl, rfl⟩
  | case2 f s' h => exact .inr (.of_busWrite h ⟨rfl, rfl⟩)

theorem phaseWakeRead_calls (s : State) : Quiet s (phaseWakeRead s) ∨ Calls s (phaseWakeRead s) := by
  unfold phaseWakeRead
  split
  · exact .inl ⟨rfl, rfl⟩
  · rename_i h
    exact .inr (.of_busRead h (by simp [Quiet, State.wakeFails]))
  · rename_i h
    refine .inr (.of_busRead h ?_)
    dsimp only
    split <;> simp [Quiet, State.wakeFails, State.wakeSucceeds]

theorem phaseCmdWrite_calls (s : State) : Quiet s (phaseCmdWrite s) ∨ Calls s (phaseCmdWrite s) := by
  fun_cases phaseCmdWrite s with
  | case1 => exact .inl ⟨rfl, rfl⟩
  | case2 s' h => exact .inr (.of_busWrite h ⟨rfl, rfl⟩)
  | case3 e s' h => exact .inr (.of_busWrite h (by simp [Quiet]))

theorem phaseReadLen_calls (s : State) : Quiet s (phaseReadLen s) ∨ Calls s (phaseReadLen s) := by
  fun_cases phaseReadLen s with
  | case1 => exact .inl ⟨rfl, rfl⟩
  | case2 e s' h => exact .inr (.of_busRead h (by simp [Quiet]))
  | case3 r s' h => exact .inr (.of_busRead h ⟨rfl, rfl⟩)

theorem phaseReadBody_calls (s : State) : Quiet s (phaseReadBody s) ∨ Calls s (phaseReadBody s) := by
  fun_cases phaseReadBody s with
  | case1 => exact .inl ⟨rfl, rfl⟩
  | case2 => exact .inl ⟨rfl, rfl⟩
  | case3 n _ e s' h => exact .inr (.of_busRead h (by simp [Quiet]))
  | case4 n _ r s' h => exact .inr (.of_busRead h ⟨rfl, rfl⟩)

theorem phaseCleanup_calls (s : State) : Quiet s (phaseCleanup s) ∨ Calls s (phaseCleanup s) := by
  fun_cases phaseCleanup s with
  | case1 => exact .inl ⟨rfl, rfl⟩
  | case2 f s' h => exact .inr (.of_powerDown h ⟨rfl, rfl⟩)

theorem phasePowerWrite_calls (s : State) : Quiet s (phasePowerWrite s) ∨ Calls s (phasePowerWrite s) := by
  fun_cases phasePowerWrite s with
  | case1 => exact .inl ⟨rfl, rfl⟩
  | case2 s' h => exact .inr (.of_powerDown h ⟨rfl, rfl⟩)
  | case3 e s' h => exact .inr (.of_powerDown h (by simp [Quiet]))

/-- How many events a phase makes at most (R17): a transport call or a delay is one. -/
def eventsOf (p : Phase) : Nat :=
  match p with
  | .wakeWrite | .wakeSettle | .wakeRead | .cmdWrite | .execWait | .readLen | .readBody | .cleanup | .powerWrite => 1
  | .idle | .check | .encode | .decode | .interpret | .done => 0

/-- How many transport calls a phase makes at most. -/
def callsOf (p : Phase) : Nat := if p ∈ transportPhases then 1 else 0

/-- From `s` to `t` at most so many events were made and so many answers consumed. -/
def Uses (events calls : Nat) (s t : State) : Prop :=
  t.trace.length ≤ s.trace.length + events ∧ s.answers.length ≤ t.answers.length + calls

theorem Quiet.uses {t : State} (h : Quiet s t) (events calls : Nat) : Uses events calls s t := by
  simp [Uses, h.1, h.2]

theorem Uses.of_quiet_or_calls {t : State} (h : Quiet s t ∨ Calls s t) : Uses 1 1 s t := by
  rcases h with h | ⟨e, a, ht, ha⟩
  · exact h.uses 1 1
  · simp [Uses, ht, ha]

/-- Every phase, in every state. -/
theorem tick_uses (s : State) : Uses (eventsOf s.phase) (callsOf s.phase) s (tick s) := by
  unfold tick
  cases hp : s.phase with
  | idle => exact Quiet.uses ⟨rfl, rfl⟩ ..
  | check => exact (phaseCheck_quiet s).uses ..
  | wakeWrite => exact .of_quiet_or_calls (phaseWakeWrite_calls s)
  | wakeSettle => simp [Uses, eventsOf, phaseWakeSettle]
  | wakeRead => exact .of_quiet_or_calls (phaseWakeRead_calls s)
  | encode => exact (phaseEncode_quiet s).uses ..
  | cmdWrite => exact .of_quiet_or_calls (phaseCmdWrite_calls s)
  | execWait => simp [Uses, eventsOf, phaseExecWait]
  | readLen => exact .of_quiet_or_calls (phaseReadLen_calls s)
  | readBody => exact .of_quiet_or_calls (phaseReadBody_calls s)
  | decode => exact (phaseDecode_quiet s).uses ..
  | interpret => exact (phaseInterpret_quiet s).uses ..
  | cleanup => exact .of_quiet_or_calls (phaseCleanup_calls s)
  | powerWrite => exact .of_quiet_or_calls (phasePowerWrite_calls s)
  | done => exact Quiet.uses ⟨rfl, rfl⟩ ..

/-! ### The bounds of an operation -/

/-- How many events an operation can still make from a phase of R17 on (R143). -/
def eventsLeft (p : Phase) : Nat :=
  match p with
  | .idle | .done | .interpret => 0
  | .powerWrite | .cleanup | .decode => 1
  | .readBody => 2
  | .readLen => 3
  | .execWait => 4
  | .cmdWrite | .encode => 5
  | .wakeRead => 6
  | .wakeSettle => 7
  | .wakeWrite | .check => 8

/-- How many transport calls it can still make: the events but for the two delays. -/
def callsLeft (p : Phase) : Nat :=
  match p with
  | .idle | .done | .interpret => 0
  | .powerWrite | .cleanup | .decode => 1
  | .readBody => 2
  | .readLen | .execWait => 3
  | .cmdWrite | .encode => 4
  | .wakeRead | .wakeSettle => 5
  | .wakeWrite | .check => 6

theorem eventsLeft_le_and_callsLeft_le (p : Phase) : eventsLeft p ≤ 8 ∧ callsLeft p ≤ 6 := by
  cases p <;> decide

theorem callsLeft_pos {p : Phase} (hp : p ∈ transportPhases) : 0 < callsLeft p := by
  revert hp; cases p <;> decide

/-- An arrow of R17 leaves room for what the phase it starts from has made. -/
theorem left_of_arrow {p : Phase} (hp : p ≠ .idle) :
    ∀ q ∈ phaseArrows p, eventsLeft q + eventsOf p ≤ eventsLeft p ∧ callsLeft q + callsOf p ≤ callsLeft p := by
  revert hp
  cases p <;> decide

/-- What an operation begun in `s` has used by state `u`, and can still use from its phase on, is within eight events
and six calls. -/
def WithinBounds (s u : State) : Prop :=
  u.trace.length + eventsLeft u.phase ≤ s.trace.length + 8 ∧
    s.answers.length + callsLeft u.phase ≤ u.answers.length + 6

theorem tick_withinBounds {u : State} (hc : Consistent u) (h : WithinBounds s u) : WithinBounds s (tick u) := by
  by_cases hi : u.phase = .idle
  · rwa [tick_idle hi]
  rcases hc.advances with ⟨ht, -⟩ | hm
  · rwa [ht]
  · have harrow := left_of_arrow hi _ hm.arrow
    have huses := tick_uses u
    unfold WithinBounds Uses at *
    omega

/-- A whole operation (R143): it makes at most eight events and six calls, and where it waits it has made fewer. -/
theorem settle_latch_withinBounds (i : Option Instr) (s : State) : WithinBounds s (settle (latch i s)) := by
  have hstart := eventsLeft_le_and_callsLeft_le (latch i s).phase
  refine settle_latch_induction (P := WithinBounds s) ?_ fun u hc _ _ => tick_withinBounds hc
  simp only [WithinBounds, latch_trace, latch_answers]
  omega

/-! ### Waiting and resuming -/

/-- A waiting operation has no answer left, and is in a phase that waits for one (R205). -/
theorem settle_latch_waits {i : Option Instr} (hb : (settle (latch i s)).busy = true) :
    (settle (latch i s)).answers = [] ∧ (settle (latch i s)).phase ∈ transportPhases :=
  (consistent_settle (consistent_latch i s)).waits hb (consistent_latch i s).tick_settle

/-- With six answers at hand an operation ends: where it waited it would have consumed all of them, and have a seventh
call to make. -/
theorem settle_latch_ends (i : Option Instr) (h : 6 ≤ s.answers.length) :
    (settle (latch i s)).busy = false ∧ (settle (latch i s)).phase = .idle := by
  have hfree : (settle (latch i s)).busy = false := by
    by_contra hb
    obtain ⟨ha, hp⟩ := settle_latch_waits (by simpa using hb)
    have hcalls := (settle_latch_withinBounds i s).2
    have hpos := callsLeft_pos hp
    rw [ha, List.length_nil] at hcalls
    omega
  exact ⟨hfree, (consistent_settle (consistent_latch i s)).phase_eq_idle hfree⟩

/-- A waiting operation goes on, with answers that come later and whatever is held by then, as if these answers had been
at hand when it was accepted (log entry 22). -/
theorem settle_latch_resumes {i : Option Instr} (hb : (settle (latch i s)).busy = true) (late : List Answer)
    (held : List PortWord) :
    settle { settle (latch i s) with answers := late, held := held } =
      { settle (latch i { s with answers := s.answers ++ late }) with held := held } := by
  calc settle { settle (latch i s) with answers := late, held := held }
    _ = settle ((settle (latch i s)).withInputs late held) := by
      rw [State.withInputs, (settle_latch_waits hb).1, List.nil_append]
    _ = settle ((latch i s).withInputs late held) :=
      settle_withInputs_settle late held (consistent_latch i (s.withInputs late held))
    _ = settle ((latch i { s with answers := s.answers ++ late }).withInputs [] held) := by
      rw [withInputs_nil]; rfl
    _ = { settle (latch i { s with answers := s.answers ++ late }) with held := held } := by
      rw [← withInputs_nil]; exact ticks_withHeld ..

/-- Settles O55: the bounds are those of the path through R17's table; a settled operation that is still in flight
waits, which nothing that is held changes, and `settle_latch_resumes` says where it goes on. -/
theorem answeredOperationsEnd : Obligations.AnsweredOperationsEnd := by
  intro i s hb
  obtain ⟨events, htrace⟩ : s.trace <+: (settle (latch (some i) s)).trace :=
    (settle_extends (latch (some i) s)).trace
  have hbounds := settle_latch_withinBounds (some i) s
  refine ⟨_, events, exec_of_not_busy hb i, htrace.symm, ?_, ?_, settle_latch_ends (some i), fun hw => ?_⟩
  · have hlen := congrArg List.length htrace
    rw [List.length_append] at hlen
    have hevents := hbounds.1
    omega
  · have hcalls := hbounds.2
    omega
  · have hstep := step_of_tick_eq hw (consistent_latch (some i) s).tick_settle
    refine ⟨(settle_latch_waits hw).1, hstep, fun w => inFlightIgnoresRequestPort _ _ _ hw hstep, fun late held => ?_⟩
    refine ⟨_, exec_of_not_busy (s := { s with answers := s.answers ++ late }) hb i, ?_⟩
    rw [← settle_latch_resumes hw]
    exact step_of_busy hw

end Sys2Proof.Machine
end

-- ==== Proofs: the other reading of the length byte ====
section
/-! EXECUTE under `RX_MODE = Restart` (D7, U18; not normative): the second read asks for as many bytes as the length
byte says, and these alone are the reply. -/

namespace Sys2Proof.Machine

variable {u : State} {k : Answer} {len : Byte} {reply data : List Byte} {rest : List Answer}

/-- The accumulator after the decode of a reply that is long enough (R92). -/
theorem sumReply_of_four_le (h : 4 ≤ reply.length) :
    u.sumReply reply = { u with acc := crcBytes 0 (reply.take (reply.length - 2)) } :=
  if_neg (Nat.not_lt.2 h)

/-- The state in which an exchange has ended that wrote `txbuf` and read `reply` after the length byte `len`. -/
def State.exchangedRestart (u : State) (len : Byte) (reply data : List Byte) (rest : List Answer) : State :=
  { u with
    result := some (.bytes data), rxlen := len, rxbuf := reply,
    acc := crcBytes 0 (reply.take (reply.length - 2)), answers := rest, phase := bodyExit u.cmd.autoWake,
    trace := u.trace ++ sendEvents u.cfg u.txbuf (.got [len]) ++
      [.read (locate u.cfg u.cfg.cmdTarget) len.toNat (.got reply)] }

/-- From the command write to the decoded reply: the length read (`ticks_lengthRead`), the second read, the decode. -/
theorem ticks_exchangeRestart {status : Option Byte} (hp : u.phase = .cmdWrite) (hm : u.cfg.rxMode = .restart)
    (ha : u.answers = k :: .bytes [len] :: .bytes reply :: rest) (hk : k.failure = none)
    (hlen : reply.length = len.toNat) (hd : decodeReply reply = .ok ⟨data, status⟩)
    (hs : status = none ∨ status = some 0x00) : ticks 5 u = u.exchangedRestart len reply data rest := by
  have hread : bodyReadLength u.cfg.rxMode len = some len.toNat := by rw [hm]; rfl
  have hframe : replyFrame u.cfg.rxMode len reply = reply := by rw [hm]; rfl
  have hgot : ∀ draws, (Answer.bytes reply).outcome len.toNat draws = .got reply := outcome_bytes hlen
  have hbody : tick (u.lengthRead len (.bytes reply :: rest)) =
      { u with
        answers := rest, phase := .decode, rxlen := len, rxbuf := reply,
        trace := u.trace ++ sendEvents u.cfg u.txbuf (.got [len]) ++
          [.read (locate u.cfg u.cfg.cmdTarget) len.toNat (.got reply)] } := by
    rw [tick_readBody_got rfl hread rfl (hgot _)]
    simp [State.lengthRead, State.afterReply, hgot, drawn_bytes hlen, hframe]
  rw [ticks_add 3 2, ticks_lengthRead hp hk ha, ticks_succ, hbody, ticks_succ,
    tick_decode_ok rfl (replyValue_of_decodeReply hd hs), ticks_zero, sumReply_of_four_le (decodeReply_ok hd).1]
  rfl

/-- Settles O31: the exchange of the other reading (`ticks_exchangeRestart`), begun from Awake. -/
theorem executeRestartReading : Obligations.ExecuteRestartReading := by
  intro s c k len reply data status rest hb hm haw hw hl ha hk hlen hd hs
  rw [exec_of_not_busy hb, (encodes_execute c s.cfg).settle_awake hl (n := 5) (le_refl _) hw haw
    (ticks_exchangeRestart rfl hm ha hk hlen hd hs) (congrArg bodyExit hw)]
  rfl

end Sys2Proof.Machine
end
